-- ==== Sys2Proof/Word.lean ====
section
/-! DEFINITION. The words of the interface and of the registers, the two ports, and a pair of like things indexed by port. -/

namespace Sys2Proof

/-- Eight bits: WRITE's data and mask, a READ result, an axis value, the handshake shadow (R10, R41). -/
abbrev Byte := BitVec 8

/-- Four bits: the payload of a READ result (R13). -/
abbrev Nibble := BitVec 4

/-- The 16-bit raw button mask (R28, R42). -/
abbrev ButtonMask := BitVec 16

/-- The cycle register. Its reachable values are 0..39, which six bits hold (R23, R64). -/
abbrev CycleReg := BitVec 6

/-- The two physical controller ports (R2). -/
inductive Port where
  | p0
  | p1
deriving DecidableEq, Repr, Inhabited

/-- The port's number, 0 or 1 (R2). -/
def Port.index : Port → Nat
  | .p0 => 0
  | .p1 => 1

/-- The port that is not this one: the rules' "q ≠ p". -/
def Port.other : Port → Port
  | .p0 => .p1
  | .p1 => .p0

/-- One value for each port: the tables `Port -> …` of R33, as plain data. -/
structure PerPort (α : Type) where
  p0 : α
  p1 : α
deriving DecidableEq, Repr, Inhabited

/-- Read the entry of one port. -/
def PerPort.get {α : Type} (t : PerPort α) : Port → α
  | .p0 => t.p0
  | .p1 => t.p1

/-- Replace the entry of one port. -/
def PerPort.set {α : Type} (t : PerPort α) (p : Port) (v : α) : PerPort α :=
  match p with
  | .p0 => { t with p0 := v }
  | .p1 => { t with p1 := v }

/-- The same value for both ports. -/
def PerPort.both {α : Type} (v : α) : PerPort α := ⟨v, v⟩

end Sys2Proof
end

