-- ==== Sys2Proof/Syntax.lean ====
section
/-! DEFINITION. The three host transactions, whole, and the names under which a transaction is refused. -/

namespace Sys2Proof

/-- The host transactions (R60), one constructor per row of the opcode table.
A transaction is the call it names (R61), so the port is the call's index, and one other than 0 or 1
can be written down: that is the call R122 refuses as `PortOutOfRange`. -/
inductive Instr where
  /-- `read(port)` → one byte (R95). -/
  | read (port : Nat)
  /-- `write(port, data_byte, mask_byte)` → void (R85). -/
  | write (port : Nat) (data mask : Byte)
  /-- `reset(port)` → void (R80). -/
  | reset (port : Nat)
deriving DecidableEq, Repr

/-- The port index a transaction names. -/
def Instr.port : Instr → Nat
  | .read n => n
  | .write n _ _ => n
  | .reset n => n

/-- The pseudo-instruction `TH0 p`: drive TH low (R74). -/
def Instr.th0 (p : Port) : Instr := .write p.index 0x00#8 0x40#8

/-- The pseudo-instruction `TH1 p`: drive TH high (R74). -/
def Instr.th1 (p : Port) : Instr := .write p.index 0x40#8 0x40#8

/-- The five refusal reasons, a closed list (R122). -/
inductive RefusalReason where
  /-- Op field 0b11. -/
  | reservedOp
  /-- Word bit 3 set. -/
  | reservedBit
  /-- A nonzero data or mask field in READ or RESET, or a word wider than 20 bits. -/
  | reservedField
  /-- A call with a port index other than 0 or 1. -/
  | portOutOfRange
  /-- A READ or WRITE of a port before its first RESET (R123). -/
  | notInitialised
deriving DecidableEq, Repr

end Sys2Proof
end

