-- ==== Sys2Proof/WellFormed.lean ====
section
/-! DEFINITION. When a transaction is well formed: it names a port in 0, 1. The bytes are bytes by their types. -/

namespace Sys2Proof

/-- Each transaction names a port in {0, 1} (R60). -/
def Instr.wf (i : Instr) : Bool := decide (i.port < 2)

end Sys2Proof
end

