-- ==== Sys2Proof/Decode.lean ====
section
/-! DEFINITION. Decoding a transaction word, total on every number, and the encoder (R61, R62). -/

namespace Sys2Proof

/-- `w[hi:lo]`, the unsigned field of bits hi down to lo (R10). -/
def bitField (w hi lo : Nat) : Nat := w / 2 ^ lo % 2 ^ (hi + 1 - lo)

/-- A word wider than 20 bits is not a transaction word (R62). -/
def tooWide (w : Nat) : Bool := decide (2 ^ 20 ≤ w)

/-- Decode of a transaction word (R62). A word wider than 20 bits is no transaction word and is refused
as `ReservedField` before its fields are looked at (log entry 6); then the refusals come in the order R125
fixes: `ReservedOp`, `ReservedBit`, `ReservedField`. -/
def decode (w : Nat) : Except RefusalReason Instr :=
  if tooWide w then .error .reservedField
  else if bitField w 1 0 = 3 then .error .reservedOp
  else if bitField w 3 3 ≠ 0 then .error .reservedBit
  else if bitField w 1 0 = 1 then
    .ok (.write (bitField w 2 2)
      (BitVec.ofNat 8 (bitField w 11 4)) (BitVec.ofNat 8 (bitField w 19 12)))
  else if bitField w 19 4 ≠ 0 then .error .reservedField
  else if bitField w 1 0 = 0 then .ok (.read (bitField w 2 2))
  else .ok (.reset (bitField w 2 2))

/-- The instruction the decoder reads from a word of `nbits` bits as the opcode table numbers them;
every bit above `nbits` is 0. The block has one format and one length (R63). -/
def decodeTableWord (nbits w : Nat) : Option Instr :=
  match decode (w % 2 ^ nbits) with
  | .ok i => some i
  | .error _ => none

/-- The op field of R61. -/
def opField : Instr → Nat
  | .read _ => 0b00
  | .write _ _ _ => 0b01
  | .reset _ => 0b10

/-- The data field of R61: must be 0 in READ and RESET. -/
def dataField : Instr → Nat
  | .read _ => 0
  | .write _ data _ => data.toNat
  | .reset _ => 0

/-- The mask field of R61: must be 0 in READ and RESET. -/
def maskField : Instr → Nat
  | .read _ => 0
  | .write _ _ mask => mask.toNat
  | .reset _ => 0

/-- The word of a well-formed transaction: `mask << 12 | data << 4 | p << 2 | op` (R61). -/
def encode (i : Instr) : Nat :=
  maskField i <<< 12 ||| dataField i <<< 4 ||| i.port <<< 2 ||| opField i

end Sys2Proof
end

