-- ==== Sys2Proof/Config.lean ====
section
/-! DEFINITION. The parameters R9 says a model takes as configuration, and the one value the spec leaves open. -/

namespace Sys2Proof

/-- `TL_BIT` (R9, R66, R67): the bit of a READ result that carries TL.
`bit4` is the spec's value; `bit5` is the alternative of R67, in which TL is ORed into the not-ready bit. -/
inductive TlBit where
  | bit4
  | bit5
deriving DecidableEq, Repr, Inhabited

/-- `LATENCY_MODEL` (R9, R26). `unbounded` is the spec's value.
`saturating limit` is the counter R26 calls indistinguishable from it when `limit` is 4 or more. -/
inductive LatencyModel where
  | unbounded
  | saturating (limit : Nat)
deriving DecidableEq, Repr, Inhabited

/-- The values of `AUX_ALIAS(p)` (R29), each read from the port p whose RESET writes the cell. -/
inductive AuxAlias where
  /-- `none`: a cell no READ samples. -/
  | unsampled
  /-- `Z(p)`: the port's own unidirectional axis. -/
  | ownZ
  /-- `X(q)`: the other port's first axis. -/
  | otherX
  /-- `Y(q)`: the other port's second axis. -/
  | otherY
deriving DecidableEq, Repr, Inhabited

/-- The three parameters a model takes as configuration (R9). No step changes them. -/
structure Config where
  tlBit        : TlBit
  latencyModel : LatencyModel
  auxAlias     : PerPort AuxAlias
deriving DecidableEq, Repr, Inhabited

/-- `AUX_ALIAS` of the machine at hand. The spec leaves it OPEN and fixes no default (R9, R29, D7),
so it has no body: nothing can be proved of its value. Log entry 3. -/
opaque Config.auxAliasOpen : Port → AuxAlias

/-- A counter that saturates below 4 is not among the legal models (R26): it would never let a WRITE advance. -/
abbrev LatencyModel.wf : LatencyModel → Bool
  | .unbounded => true
  | .saturating limit => decide (4 ≤ limit)

end Sys2Proof
end

