-- ==== Sys2Proof/Machine/Params.lean ====
section
/-! DEFINITION. The numeric literals of R9, normative as written and unaudited (R4), and the machine's configuration. -/

namespace Sys2Proof.Machine

/-- `LATENCY_THRESHOLD`: a non-edge WRITE advances only if latency is greater (R9). -/
def latencyThreshold : Nat := 3

/-- `CYCLE_CLAMP`: the largest value a group advance can write to cycle (R9). -/
def cycleClamp : Nat := 32

/-- `CENTRE`: the value RESET writes to the axes (R9). -/
def centre : Byte := 128#8

/-- `IDLE_SHADOW`: the reset value of the shadow, and the base of every READ result (R9). -/
def idleShadow : Byte := 0x40#8

/-- The bit of the shadow that is TH, the handshake line (R65). -/
def thBit : Nat := 6

/-- The configuration of the machine after reset: the values R9 gives, and the open alias (log entries 1 to 3). -/
def machineConfig : Config :=
  { tlBit := .bit4
    latencyModel := .unbounded
    auxAlias := ⟨Config.auxAliasOpen .p0, Config.auxAliasOpen .p1⟩ }

end Sys2Proof.Machine
end

