-- ==== Sys2Proof/Machine/State.lean ====
section
/-! DEFINITION. The whole machine state of R33, what the host gets back, and the events still to come. -/

namespace Sys2Proof.Machine

/-- The three registers of one instance, and nothing else (R20). -/
structure Instance where
  /-- The handshake shadow: the last merged byte the host wrote; bit 6 is TH (R22, R65). -/
  shadow  : Byte
  /-- The position in the frame (R23, R64). -/
  cycle   : CycleReg
  /-- READs since the last frame reset or RESET (R25, R26). -/
  latency : Nat
deriving DecidableEq, Repr, Inhabited

/-- The input snapshot of one port (R28): state outside the block, which READ samples. -/
structure Snapshot where
  /-- The bidirectional stick's first axis. -/
  x : Byte
  /-- The bidirectional stick's second axis. -/
  y : Byte
  /-- The unidirectional stick's axis. -/
  z : Byte
  /-- The raw button mask. -/
  b : ButtonMask
deriving DecidableEq, Repr, Inhabited

/-- One byte returned to the host by a READ of a port (R41, R154). -/
structure ReadResult where
  port : Port
  byte : Byte
deriving DecidableEq, Repr

/-- A write of the input collaborator (R7, R8): one field of a port's snapshot, or its extra cell (R29, R30). -/
inductive CollabWrite where
  | x (p : Port) (v : Byte)
  | y (p : Port) (v : Byte)
  | z (p : Port) (v : Byte)
  | b (p : Port) (v : ButtonMask)
  | aux (p : Port) (v : Byte)
deriving DecidableEq, Repr

/-- What can happen to the block from outside, one event at a time (R7, R46, R125). -/
inductive Event where
  /-- The host issues a transaction word (R61). -/
  | word (w : Nat)
  /-- The host makes a call (R60, R122). -/
  | call (i : Instr)
  /-- The input collaborator writes between transactions (R8). -/
  | collab (c : CollabWrite)
deriving DecidableEq, Repr

/-- The machine state (R33), with the sequence of READ results of R153. -/
structure State where
  /-- The hardware state: three registers per instance (R20, R33). -/
  inst        : PerPort Instance
  /-- The input snapshot of each port, which belongs to the environment (R28, R33). -/
  snap        : PerPort Snapshot
  /-- The extra cell of each port: its own storage, in use where `AUX_ALIAS` names no sampled field (R29). -/
  aux         : PerPort Byte
  /-- Whether the instance has had its first RESET: model bookkeeping (R31). -/
  initialised : PerPort Bool
  /-- The sticky mark of a run that met a refused transaction: model bookkeeping (R32). -/
  refused     : Bool
  /-- The reason the latest refused transaction reported (R122, R125). -/
  lastRefusal : Option RefusalReason
  /-- The bytes returned by READs so far, oldest first (R153). -/
  results     : List ReadResult
  /-- The host transactions and collaborator writes still to come, in their one total order (R46). -/
  inbox       : List Event
  /-- The parameters of R9. -/
  config      : Config
deriving DecidableEq, Repr

/-- Why the machine stops with a fault. -/
inductive Fault where
  /-- Raised by READ alone, when the cycle register holds a slot of 10 or more (R124). No state
  reachable from a RESET has one (R24). Safe: the model stops and invents no value. -/
  | unreachableSlot
deriving DecidableEq, Repr

/-- Why the model gives an instruction no meaning. The spec's own refusals are not among these: they
leave the state unchanged but for the mark of R32, so they are next states (log entry 5). -/
inductive Refusal where
  /-- Raised by an arm of exec whose instruction has no meaning yet; no arm does. Safe. -/
  | notModelled (mnemonic : String)
deriving DecidableEq, Repr

/-- The registers of an instance right after its RESET (R81, R140). -/
def Instance.afterReset : Instance := { shadow := idleShadow, cycle := 0#6, latency := 0 }

/-- The power-on state (R141, R153): no instance has had its RESET, nothing is refused, nothing returned.
Registers and environment hold no value the spec gives, so they are arguments. -/
def State.powerOn (config : Config) (inst : PerPort Instance) (snap : PerPort Snapshot)
    (aux : PerPort Byte) (inbox : List Event) : State :=
  { inst := inst
    snap := snap
    aux := aux
    initialised := .both false
    refused := false
    lastRefusal := none
    results := []
    inbox := inbox
    config := config }

/-- The state right after RESET of both ports (R140, R143), for a given configuration.
The raw button masks are a choice of the model (log entry 7). -/
def State.resetWith (config : Config) : State :=
  { inst := .both .afterReset
    snap := .both { x := centre, y := centre, z := centre, b := 0#16 }
    aux := .both centre
    initialised := .both true
    refused := false
    lastRefusal := none
    results := []
    inbox := []
    config := config }

/-- The machine right after reset (R140), in the configuration of R9. -/
def State.reset : State := .resetWith machineConfig

end Sys2Proof.Machine
end

