-- ==== Sys2Proof/Machine/Operands.lean ====
section
/-! DEFINITION. The operand forms: a call's port index, WRITE's merged byte, the fields of the cycle register, the payload multiplexer. -/

namespace Sys2Proof.Machine

/-- The port a call's index names, if any (R60, R122). -/
def portOfIndex? : Nat → Option Port
  | 0 => some .p0
  | 1 => some .p1
  | _ => none

/-- WRITE's operand: `merged = (shadow & ~mask) | (data & mask)` (R71, R86). -/
def mergedByte (shadow data mask : Byte) : Byte := (shadow &&& ~~~mask) ||| (data &&& mask)

/-- `base(c) = c & ~7`: the group's first cycle value (R12). -/
def cycleBase (c : CycleReg) : CycleReg := c &&& ~~~7#6

/-- `slot(c) = c >> 2`: which payload is selected (R12, R64). -/
def cycleSlot (c : CycleReg) : Nat := (c >>> 2).toNat

/-- `group(c) = c >> 3` (R12, R64). -/
def cycleGroup (c : CycleReg) : Nat := (c >>> 3).toNat

/-- `sub(c) = c[2:0]` (R12, R64). -/
def cycleSub (c : CycleReg) : Nat := (c &&& 7#6).toNat

/-- `half(c) = c[2]` (R12, R64). -/
def cycleHalf (c : CycleReg) : Bool := c.getLsbD 2

/-- `rep(c) = c[1:0]` (R12, R64). -/
def cycleRep (c : CycleReg) : Nat := (c &&& 3#6).toNat

/-- The high nibble of an axis value, `v[7:4]` (R70). -/
def highNibble (v : Byte) : Nibble := v.extractLsb' 4 4

/-- The low nibble of an axis value, `v[3:0]` (R70). -/
def lowNibble (v : Byte) : Nibble := v.extractLsb' 0 4

/-- The payload multiplexer (R68), over the complement of the raw button mask; none for a slot of 10
or more, which no rule gives a payload (R72). -/
def payload? (slot : Nat) (v : Snapshot) : Option Nibble :=
  let nb := ~~~v.b
  match slot with
  | 0 => some (nb.extractLsb' 8 4)
  | 1 => some (nb.extractLsb' 4 4)
  | 2 => some (highNibble v.x)
  | 3 => some (highNibble v.y)
  | 4 => some 0#4
  | 5 => some (highNibble v.z)
  | 6 => some (lowNibble v.x)
  | 7 => some (lowNibble v.y)
  | 8 => some 0#4
  | 9 => some (lowNibble v.z)
  | _ => none

end Sys2Proof.Machine
end

