-- ==== Sys2Proof/Machine/Flags.lean ====
section
/-! DEFINITION. The conditions and status bits: the falling edge of TH, not-ready, TL, and the packing of a READ result. -/

namespace Sys2Proof.Machine

/-- The falling edge of TH: bit 6 set in the shadow before, clear in the merged byte (R87). -/
def fallingEdge (shadow merged : Byte) : Bool := shadow.getLsbD thBit && !merged.getLsbD thBit

/-- NR: 1 on the first read of each half (R67). -/
def notReady (c : CycleReg) : Bool := decide (cycleRep c = 0)

/-- A status bit at its place in the result byte. -/
def statusBit (on : Bool) (position : Nat) : Byte := (BitVec.ofBool on).setWidth 8 <<< position

/-- `TL_BIT` as a bit position (R9). -/
def tlPosition : TlBit → Nat
  | .bit4 => 4
  | .bit5 => 5

/-- `0x40 | (NR << 5) | (TL << TL_BIT) | nib`, on the cycle before the READ advances it (R95, R97). -/
def resultByte (tl : TlBit) (c : CycleReg) (nib : Nibble) : Byte :=
  idleShadow ||| statusBit (notReady c) 5 ||| statusBit (cycleHalf c) (tlPosition tl) ||| nib.setWidth 8

end Sys2Proof.Machine
end

