-- ==== Sys2Proof/Machine/Ops.lean ====
section
/-! DEFINITION. The named operations over the registers, the snapshot and the extra cell; refusing a transaction; the collaborator's writes.
The block has no memory (R40) and takes no exception (R120, R126): refusing is the one shared way a transaction ends early. -/

namespace Sys2Proof.Machine

/-- Write the three registers of one instance. -/
def State.setInst (s : State) (p : Port) (v : Instance) : State :=
  { s with inst := s.inst.set p v }

/-- Write the snapshot of one port. -/
def State.setSnap (s : State) (p : Port) (v : Snapshot) : State :=
  { s with snap := s.snap.set p v }

/-- Read the extra cell: the aliased snapshot field, or the cell's own storage (R29). -/
def State.readAux (s : State) (p : Port) : Byte :=
  match s.config.auxAlias.get p with
  | .unsampled => s.aux.get p
  | .ownZ => (s.snap.get p).z
  | .otherX => (s.snap.get p.other).x
  | .otherY => (s.snap.get p.other).y

/-- What one place holds after a write to the extra cell: the new value if the cell's alias is that place,
else what it held. A write of the value already there changes nothing either way, and is
told apart first so that it can be evaluated while the alias is open. -/
def afterAuxWrite (aliased place : AuxAlias) (old new : Byte) : Byte :=
  if old = new then old else if aliased = place then new else old

/-- Write the extra cell: a write to the aliased snapshot field, or to the cell's own storage (R29). -/
def State.writeAux (s : State) (p : Port) (v : Byte) : State :=
  let aliased := s.config.auxAlias.get p
  let own := s.snap.get p
  let other := s.snap.get p.other
  { s with
    aux := s.aux.set p (afterAuxWrite aliased .unsampled (s.aux.get p) v)
    snap := (s.snap.set p { own with z := afterAuxWrite aliased .ownZ own.z v }).set p.other
      { other with
        x := afterAuxWrite aliased .otherX other.x v
        y := afterAuxWrite aliased .otherY other.y v } }

/-- RESET's writes to the snapshot (R82), in the order of R80. -/
def State.centreAxes (s : State) (p : Port) : State :=
  (s.setSnap p { s.snap.get p with x := centre, y := centre, z := centre }).writeAux p centre

/-- Mark an instance as having had its RESET (R31). -/
def State.markInitialised (s : State) (p : Port) : State :=
  { s with initialised := s.initialised.set p true }

/-- Return one byte to the host (R95, R153). -/
def State.returnByte (s : State) (p : Port) (v : Byte) : State :=
  { s with results := s.results ++ [{ port := p, byte := v }] }

/-- Refuse a transaction (R122): no instance state and no snapshot changes, no byte is returned, the
sticky mark is set (R32), and the reason is reported (R125). -/
def State.refuse (s : State) (r : RefusalReason) : State :=
  { s with refused := true, lastRefusal := some r }

/-- Run a transaction at the port its index names, or refuse it (R122, second in the order of R125). -/
def atPort (port : Nat) (s : State) (body : Port → Host.Outcome State Fault Refusal) :
    Host.Outcome State Fault Refusal :=
  match portOfIndex? port with
  | some p => body p
  | none => .next (s.refuse .portOutOfRange)

/-- Run a READ or WRITE at an instance that has had its RESET, or refuse it (R123, third in the order of R125). -/
def atInstance (port : Nat) (s : State) (body : Port → Host.Outcome State Fault Refusal) :
    Host.Outcome State Fault Refusal :=
  atPort port s fun p =>
    match s.initialised.get p with
    | true => body p
    | false => .next (s.refuse .notInitialised)

/-- The field-group advance: `min((cycle & ~7) + 8, 32)`, on naturals (R10, R89). -/
def advancedCycle (c : CycleReg) : CycleReg :=
  BitVec.ofNat 6 (min ((cycleBase c).toNat + 8) cycleClamp)

/-- The sub-cycle advance of READ: `(cycle & ~7) | ((cycle + 1) & 7)` (R104). -/
def nextSubCycle (c : CycleReg) : CycleReg := cycleBase c ||| ((c + 1#6) &&& 7#6)

/-- One more READ counted (R105), under the latency model of R26. -/
def countRead (m : LatencyModel) (latency : Nat) : Nat :=
  match m with
  | .unbounded => latency + 1
  | .saturating limit => min (latency + 1) limit

/-- The effect of one write of the input collaborator (R8, R30). -/
def applyCollab (c : CollabWrite) (s : State) : State :=
  match c with
  | .x p v => s.setSnap p { s.snap.get p with x := v }
  | .y p v => s.setSnap p { s.snap.get p with y := v }
  | .z p v => s.setSnap p { s.snap.get p with z := v }
  | .b p v => s.setSnap p { s.snap.get p with b := v }
  | .aux p v => s.writeAux p v

end Sys2Proof.Machine
end

