-- ==== Sys2Proof/Machine/Read.lean ====
section
/-! DEFINITION. The meaning of READ (R95 to R108). -/

namespace Sys2Proof.Machine

/-- The registers of an instance after a READ: the sub-cycle advances, one more READ is counted, the
shadow stays (R104, R105, R108). -/
def instanceAfterRead (m : LatencyModel) (v : Instance) : Instance :=
  { shadow := v.shadow, cycle := nextSubCycle v.cycle, latency := countRead m v.latency }

/-- READ at an instance: return the byte composed from the cycle as it stood before, then advance it
(R95, R97). A slot of 10 or more has no payload: the fault of R124. -/
def readAt (s : State) (p : Port) : Host.Outcome State Fault Refusal :=
  let v := s.inst.get p
  match payload? (cycleSlot v.cycle) (s.snap.get p) with
  | some nib =>
    .next ((s.setInst p (instanceAfterRead s.config.latencyModel v)).returnByte p
      (resultByte s.config.tlBit v.cycle nib))
  | none => .fault .unreachableSlot

/-- READ p: pull the next nibble (R95). -/
def execRead (port : Nat) (s : State) : Host.Outcome State Fault Refusal :=
  atInstance port s (readAt s)

end Sys2Proof.Machine
end

