-- ==== Sys2Proof/Machine/Reset.lean ====
section
/-! DEFINITION. The meaning of RESET (R80 to R83). -/

namespace Sys2Proof.Machine

/-- RESET p: centre the axes and the extra cell, then give the instance its reset values (R80). -/
def execReset (port : Nat) (s : State) : Host.Outcome State Fault Refusal :=
  atPort port s fun p => .next (((s.centreAxes p).setInst p .afterReset).markInitialised p)

end Sys2Proof.Machine
end

