-- ==== Sys2Proof/Machine/Write.lean ====
section
/-! DEFINITION. The meaning of WRITE (R85 to R91). -/

namespace Sys2Proof.Machine

/-- The registers of an instance after a WRITE: the falling-edge test first (R91), then the debounce
(R89), and the merged byte stored whichever branch was taken (R90). -/
def instanceAfterWrite (v : Instance) (data mask : Byte) : Instance :=
  let merged := mergedByte v.shadow data mask
  if fallingEdge v.shadow merged then
    { shadow := merged, cycle := 0#6, latency := 0 }
  else if latencyThreshold < v.latency then
    { shadow := merged, cycle := advancedCycle v.cycle, latency := v.latency }
  else
    { shadow := merged, cycle := v.cycle, latency := v.latency }

/-- WRITE p, data, mask: the host drives output bits, TH among them (R85). -/
def execWrite (port : Nat) (data mask : Byte) (s : State) : Host.Outcome State Fault Refusal :=
  atInstance port s fun p => .next (s.setInst p (instanceAfterWrite (s.inst.get p) data mask))

end Sys2Proof.Machine
end

