-- ==== Sys2Proof/Machine/Dispatch.lean ====
section
/-! DEFINITION. One arm per transaction. -/

namespace Sys2Proof.Machine

/-- The meaning of each host transaction (R60). -/
def exec (i : Instr) (s : State) : Host.Outcome State Fault Refusal :=
  match i with
  | .read port => Sys2Proof.Machine.execRead port s
  | .write port data mask => Sys2Proof.Machine.execWrite port data mask s
  | .reset port => Sys2Proof.Machine.execReset port s

end Sys2Proof.Machine
end

