-- ==== Sys2Proof/Machine/Transactions.lean ====
section
/-! DEFINITION. Carrying out one event from outside: a transaction word, a call, or a collaborator's write. -/

namespace Sys2Proof.Machine

/-- A transaction word: the call it decodes to, or the refusal the decoder names (R61, R62, R122). -/
def runWord (w : Nat) (s : State) : Host.Outcome State Fault Refusal :=
  match decode w with
  | .ok i => exec i s
  | .error r => .next (s.refuse r)

/-- One event, as one atomic step (R45). -/
def runEvent (e : Event) (s : State) : Host.Outcome State Fault Refusal :=
  match e with
  | .word w => runWord w s
  | .call i => exec i s
  | .collab c => .next (applyCollab c s)

/-- The event that stands for a word of `nbits` bits as the opcode table numbers them. -/
def tableWordEvent (nbits w : Nat) : Event := .word (w % 2 ^ nbits)

end Sys2Proof.Machine
end

