-- ==== Sys2Proof/Machine/Step.lean ====
section
/-! DEFINITION. One step: the next event of the one total order (R46), and the host's way to place a word before it. -/

namespace Sys2Proof.Machine

/-- Take the oldest event still to come and carry it out. With none, nothing happens: the block never
steps on its own and its state holds (R7, R134). -/
def step (s : State) : Host.Outcome State Fault Refusal :=
  match s.inbox with
  | [] => .next s
  | e :: rest => runEvent e { s with inbox := rest }

/-- `s` with the host's word as the very next event. -/
def State.withFetchWord (s : State) (nbits w : Nat) : State :=
  { s with inbox := tableWordEvent nbits w :: s.inbox }

end Sys2Proof.Machine
end

