-- ==== Sys2Proof/Laws/Decode.lean ====
section
/-! SUPPORT. The encoder's word as a sum of its fields, and what the decoder answers on each kind of word. -/

namespace Sys2Proof

/-- The fields of R61 do not overlap, so the word is their sum. -/
theorem encode_eq_sum {i : Instr} (h : i.wf = true) :
    encode i = maskField i * 4096 + dataField i * 16 + i.port * 4 + opField i := by
  have hp : i.port < 2 := of_decide_eq_true h
  have hop : opField i < 4 := by cases i <;> simp [opField]
  have hd : dataField i < 256 := by
    cases i with
    | write n d m => exact d.isLt
    | read n => exact Nat.zero_lt_succ _
    | reset n => exact Nat.zero_lt_succ _
  have h1 : maskField i <<< 12 ||| dataField i <<< 4 = (maskField i * 256 + dataField i) <<< 4 := by
    have : maskField i <<< 12 = (maskField i <<< 8) <<< 4 := by rw [← Nat.shiftLeft_add]
    rw [this, ← Nat.shiftLeft_or_distrib, ← Nat.shiftLeft_add_eq_or_of_lt (b := dataField i) hd]
    simp [Nat.shiftLeft_eq]
  have h2 : (maskField i * 256 + dataField i) <<< 4 ||| i.port <<< 2 =
      ((maskField i * 256 + dataField i) * 4 + i.port) <<< 2 := by
    have : (maskField i * 256 + dataField i) <<< 4 =
        ((maskField i * 256 + dataField i) <<< 2) <<< 2 := by rw [← Nat.shiftLeft_add]
    rw [this, ← Nat.shiftLeft_or_distrib,
      ← Nat.shiftLeft_add_eq_or_of_lt (b := i.port) (by omega : i.port < 2 ^ 2)]
    simp [Nat.shiftLeft_eq]
  rw [encode, h1, h2, ← Nat.shiftLeft_add_eq_or_of_lt (b := opField i) hop]
  simp only [Nat.shiftLeft_eq]
  omega

theorem decode_too_wide {w : Nat} (h : 2 ^ 20 ≤ w) : decode w = .error .reservedField := by
  have hw : tooWide w = true := decide_eq_true h
  simp [decode, hw]

theorem decodeTableWord_eq_some {nbits w : Nat} {i : Instr}
    (h : decodeTableWord nbits w = some i) : decode (w % 2 ^ nbits) = .ok i := by
  unfold decodeTableWord at h
  split at h
  · next hd => cases h; exact hd
  · cases h

end Sys2Proof
end

