-- ==== Sys2Proof/Laws/PerInstr.lean ====
section
/-! SUPPORT. A statement about every transaction as syntax, one lemma per constructor: its word has 20 bits. -/

namespace Sys2Proof.Laws.EncodeFits

/-- The word of a well-formed transaction is a transaction word: at most 20 bits (R61, R62). -/
def Statement (i : Instr) : Prop := i.wf = true → encode i < 2 ^ 20

theorem read (n : Nat) : Statement (.read n) := by
  intro h
  have hp : n < 2 := of_decide_eq_true h
  rw [encode_eq_sum h]
  simp only [maskField, dataField, opField, Instr.port]
  omega

theorem write (n : Nat) (data mask : Byte) : Statement (.write n data mask) := by
  intro h
  have hp : n < 2 := of_decide_eq_true h
  have hd := data.isLt
  have hm := mask.isLt
  rw [encode_eq_sum h]
  simp only [maskField, dataField, opField, Instr.port]
  omega

theorem reset (n : Nat) : Statement (.reset n) := by
  intro h
  have hp : n < 2 := of_decide_eq_true h
  rw [encode_eq_sum h]
  simp only [maskField, dataField, opField, Instr.port]
  omega

end Sys2Proof.Laws.EncodeFits
end

