-- ==== Sys2Proof/Safety.lean ====
section
/-! DEFINITION. What counts as a good state and a clean run, and the maps between states that claims compare runs by. -/

namespace Sys2Proof.Machine

/-- `k` steps of the machine behind the host's interface. -/
def runSteps (k : Nat) (s : State) : Host.Outcome State Fault Refusal := Host.Core.run core k s

/-- The bound of R24 on one port: an instance that has had its RESET holds a cycle in 0..39. -/
abbrev State.CycleReachable (s : State) (p : Port) : Prop :=
  s.initialised.get p = true → (s.inst.get p).cycle.toNat ≤ 39

/-- Every byte returned so far lies in 0x40..0x7F: bit 7 clear and bit 6 set (R66, R73). -/
abbrev State.ResultsFramed (s : State) : Prop :=
  ∀ r ∈ s.results, 0x40 ≤ r.byte.toNat ∧ r.byte.toNat ≤ 0x7F

/-- The model's invariant: R24 on both ports, R73 on what was returned, and the sticky mark of R32 set
exactly when a refusal has been reported. -/
abbrev State.Inv (s : State) : Prop :=
  s.CycleReachable .p0 ∧ s.CycleReachable .p1 ∧ s.ResultsFramed ∧ s.refused = s.lastRefusal.isSome

/-- A clean state: no transaction has been refused so far (R32). -/
abbrev State.Clean (s : State) : Prop := s.refused = false

/-- An event a host that keeps to R154 may cause: a word that decodes, a call that names a port in 0, 1,
or any write of the collaborator. -/
def Event.wellFormed : Event → Bool
  | .word w => match decode w with
    | .ok _ => true
    | .error _ => false
  | .call i => i.wf
  | .collab _ => true

/-- Whether a transaction is a READ. -/
def isReadInstr : Instr → Bool
  | .read _ => true
  | .write _ _ _ => false
  | .reset _ => false

/-- Whether an event is a READ, issued as a word or as a call. -/
def Event.isRead : Event → Bool
  | .word w => match decode w with
    | .ok i => isReadInstr i
    | .error _ => false
  | .call i => isReadInstr i
  | .collab _ => false

/-- Apply a map to the next state of an outcome. -/
def mapNext (f : State → State) : Host.Outcome State Fault Refusal → Host.Outcome State Fault Refusal
  | .next s => .next (f s)
  | .fault r => .fault r
  | .refused r => .refused r

/-- The same map on both entries of a table. -/
def mapPorts {α : Type} (f : α → α) (t : PerPort α) : PerPort α := ⟨f t.p0, f t.p1⟩

/-- The view of a state in which both latency counters saturate at `limit` (R26). -/
def State.saturateLatency (limit : Nat) (s : State) : State :=
  { s with
    inst := mapPorts (fun v => { v with latency := min v.latency limit }) s.inst
    config := { s.config with latencyModel := .saturating limit } }

/-- The view of a state in which only TH is left of both shadows (R27). -/
def State.keepThOnly (s : State) : State :=
  { s with inst := mapPorts (fun v => { v with shadow := v.shadow &&& 0x40#8 }) s.inst }

/-- The bound a host that toggles TH never leaves (R146): group 0 while TH is low, at most group 1
while it is high. -/
abbrev Instance.WithinGroups01 (v : Instance) : Prop :=
  (v.shadow.getLsbD 6 = false → v.cycle.toNat < 8) ∧
  (v.shadow.getLsbD 6 = true → v.cycle.toNat < 16)

end Sys2Proof.Machine
end

