-- ==== Sys2Proof/Laws/State.lean ====
section
/-! SUPPORT. One lemma per field per update of the state, and the laws of the per-port tables. -/

namespace Sys2Proof

@[simp] theorem Port.other_other (p : Port) : p.other.other = p := by cases p <;> rfl
@[simp] theorem Port.other_ne (p : Port) : p.other ≠ p := by cases p <;> decide
@[simp] theorem Port.ne_other (p : Port) : p ≠ p.other := by cases p <;> decide
theorem Port.eq_or_eq_other (p q : Port) : q = p ∨ q = p.other := by cases p <;> cases q <;> decide
theorem Port.index_lt_two (p : Port) : p.index < 2 := by cases p <;> decide
theorem Port.index_injective {p q : Port} (h : p.index = q.index) : p = q := by
  cases p <;> cases q <;> first | rfl | cases h

@[simp] theorem PerPort.get_both {α : Type} (v : α) (p : Port) : (PerPort.both v).get p = v := by
  cases p <;> rfl
@[simp] theorem PerPort.get_set {α : Type} (t : PerPort α) (p : Port) (v : α) :
    (t.set p v).get p = v := by cases p <;> rfl
@[simp] theorem PerPort.get_set_other {α : Type} (t : PerPort α) (p : Port) (v : α) :
    (t.set p v).get p.other = t.get p.other := by cases p <;> rfl
@[simp] theorem PerPort.get_set_of_other {α : Type} (t : PerPort α) (p : Port) (v : α) :
    (t.set p.other v).get p = t.get p := by cases p <;> rfl
@[simp] theorem PerPort.set_get {α : Type} (t : PerPort α) (p : Port) : t.set p (t.get p) = t := by
  cases p <;> rfl
@[simp] theorem PerPort.set_set {α : Type} (t : PerPort α) (p : Port) (v w : α) :
    (t.set p v).set p w = t.set p w := by cases p <;> rfl
theorem PerPort.set_set_other {α : Type} (t : PerPort α) (p : Port) (v w : α) :
    (t.set p v).set p.other w = (t.set p.other w).set p v := by cases p <;> rfl
theorem PerPort.eq_of_get {α : Type} {t u : PerPort α} (p : Port) (h : t.get p = u.get p)
    (ho : t.get p.other = u.get p.other) : t = u := by
  cases t; cases u; cases p <;> simp_all [PerPort.get, Port.other]

namespace Machine

@[simp] theorem State.setInst_inst (s : State) (p : Port) (v : Instance) :
    (s.setInst p v).inst = s.inst.set p v := rfl
@[simp] theorem State.setInst_snap (s : State) (p : Port) (v : Instance) :
    (s.setInst p v).snap = s.snap := rfl
@[simp] theorem State.setInst_aux (s : State) (p : Port) (v : Instance) :
    (s.setInst p v).aux = s.aux := rfl
@[simp] theorem State.setInst_initialised (s : State) (p : Port) (v : Instance) :
    (s.setInst p v).initialised = s.initialised := rfl
@[simp] theorem State.setInst_refused (s : State) (p : Port) (v : Instance) :
    (s.setInst p v).refused = s.refused := rfl
@[simp] theorem State.setInst_lastRefusal (s : State) (p : Port) (v : Instance) :
    (s.setInst p v).lastRefusal = s.lastRefusal := rfl
@[simp] theorem State.setInst_results (s : State) (p : Port) (v : Instance) :
    (s.setInst p v).results = s.results := rfl
@[simp] theorem State.setInst_inbox (s : State) (p : Port) (v : Instance) :
    (s.setInst p v).inbox = s.inbox := rfl
@[simp] theorem State.setInst_config (s : State) (p : Port) (v : Instance) :
    (s.setInst p v).config = s.config := rfl

@[simp] theorem State.setSnap_inst (s : State) (p : Port) (v : Snapshot) :
    (s.setSnap p v).inst = s.inst := rfl
@[simp] theorem State.setSnap_snap (s : State) (p : Port) (v : Snapshot) :
    (s.setSnap p v).snap = s.snap.set p v := rfl
@[simp] theorem State.setSnap_aux (s : State) (p : Port) (v : Snapshot) :
    (s.setSnap p v).aux = s.aux := rfl
@[simp] theorem State.setSnap_initialised (s : State) (p : Port) (v : Snapshot) :
    (s.setSnap p v).initialised = s.initialised := rfl
@[simp] theorem State.setSnap_refused (s : State) (p : Port) (v : Snapshot) :
    (s.setSnap p v).refused = s.refused := rfl
@[simp] theorem State.setSnap_lastRefusal (s : State) (p : Port) (v : Snapshot) :
    (s.setSnap p v).lastRefusal = s.lastRefusal := rfl
@[simp] theorem State.setSnap_results (s : State) (p : Port) (v : Snapshot) :
    (s.setSnap p v).results = s.results := rfl
@[simp] theorem State.setSnap_inbox (s : State) (p : Port) (v : Snapshot) :
    (s.setSnap p v).inbox = s.inbox := rfl
@[simp] theorem State.setSnap_config (s : State) (p : Port) (v : Snapshot) :
    (s.setSnap p v).config = s.config := rfl

@[simp] theorem State.writeAux_inst (s : State) (p : Port) (v : Byte) :
    (s.writeAux p v).inst = s.inst := rfl
@[simp] theorem State.writeAux_initialised (s : State) (p : Port) (v : Byte) :
    (s.writeAux p v).initialised = s.initialised := rfl
@[simp] theorem State.writeAux_refused (s : State) (p : Port) (v : Byte) :
    (s.writeAux p v).refused = s.refused := rfl
@[simp] theorem State.writeAux_lastRefusal (s : State) (p : Port) (v : Byte) :
    (s.writeAux p v).lastRefusal = s.lastRefusal := rfl
@[simp] theorem State.writeAux_results (s : State) (p : Port) (v : Byte) :
    (s.writeAux p v).results = s.results := rfl
@[simp] theorem State.writeAux_inbox (s : State) (p : Port) (v : Byte) :
    (s.writeAux p v).inbox = s.inbox := rfl
@[simp] theorem State.writeAux_config (s : State) (p : Port) (v : Byte) :
    (s.writeAux p v).config = s.config := rfl

@[simp] theorem State.centreAxes_inst (s : State) (p : Port) : (s.centreAxes p).inst = s.inst := rfl
@[simp] theorem State.centreAxes_initialised (s : State) (p : Port) :
    (s.centreAxes p).initialised = s.initialised := rfl
@[simp] theorem State.centreAxes_refused (s : State) (p : Port) :
    (s.centreAxes p).refused = s.refused := rfl
@[simp] theorem State.centreAxes_lastRefusal (s : State) (p : Port) :
    (s.centreAxes p).lastRefusal = s.lastRefusal := rfl
@[simp] theorem State.centreAxes_results (s : State) (p : Port) :
    (s.centreAxes p).results = s.results := rfl
@[simp] theorem State.centreAxes_inbox (s : State) (p : Port) :
    (s.centreAxes p).inbox = s.inbox := rfl
@[simp] theorem State.centreAxes_config (s : State) (p : Port) :
    (s.centreAxes p).config = s.config := rfl

@[simp] theorem State.markInitialised_inst (s : State) (p : Port) :
    (s.markInitialised p).inst = s.inst := rfl
@[simp] theorem State.markInitialised_snap (s : State) (p : Port) :
    (s.markInitialised p).snap = s.snap := rfl
@[simp] theorem State.markInitialised_aux (s : State) (p : Port) :
    (s.markInitialised p).aux = s.aux := rfl
@[simp] theorem State.markInitialised_initialised (s : State) (p : Port) :
    (s.markInitialised p).initialised = s.initialised.set p true := rfl
@[simp] theorem State.markInitialised_refused (s : State) (p : Port) :
    (s.markInitialised p).refused = s.refused := rfl
@[simp] theorem State.markInitialised_lastRefusal (s : State) (p : Port) :
    (s.markInitialised p).lastRefusal = s.lastRefusal := rfl
@[simp] theorem State.markInitialised_results (s : State) (p : Port) :
    (s.markInitialised p).results = s.results := rfl
@[simp] theorem State.markInitialised_inbox (s : State) (p : Port) :
    (s.markInitialised p).inbox = s.inbox := rfl
@[simp] theorem State.markInitialised_config (s : State) (p : Port) :
    (s.markInitialised p).config = s.config := rfl

@[simp] theorem State.returnByte_inst (s : State) (p : Port) (v : Byte) :
    (s.returnByte p v).inst = s.inst := rfl
@[simp] theorem State.returnByte_snap (s : State) (p : Port) (v : Byte) :
    (s.returnByte p v).snap = s.snap := rfl
@[simp] theorem State.returnByte_aux (s : State) (p : Port) (v : Byte) :
    (s.returnByte p v).aux = s.aux := rfl
@[simp] theorem State.returnByte_initialised (s : State) (p : Port) (v : Byte) :
    (s.returnByte p v).initialised = s.initialised := rfl
@[simp] theorem State.returnByte_refused (s : State) (p : Port) (v : Byte) :
    (s.returnByte p v).refused = s.refused := rfl
@[simp] theorem State.returnByte_lastRefusal (s : State) (p : Port) (v : Byte) :
    (s.returnByte p v).lastRefusal = s.lastRefusal := rfl
@[simp] theorem State.returnByte_results (s : State) (p : Port) (v : Byte) :
    (s.returnByte p v).results = s.results ++ [{ port := p, byte := v }] := rfl
@[simp] theorem State.returnByte_inbox (s : State) (p : Port) (v : Byte) :
    (s.returnByte p v).inbox = s.inbox := rfl
@[simp] theorem State.returnByte_config (s : State) (p : Port) (v : Byte) :
    (s.returnByte p v).config = s.config := rfl

@[simp] theorem State.refuse_inst (s : State) (r : RefusalReason) : (s.refuse r).inst = s.inst := rfl
@[simp] theorem State.refuse_snap (s : State) (r : RefusalReason) : (s.refuse r).snap = s.snap := rfl
@[simp] theorem State.refuse_aux (s : State) (r : RefusalReason) : (s.refuse r).aux = s.aux := rfl
@[simp] theorem State.refuse_initialised (s : State) (r : RefusalReason) :
    (s.refuse r).initialised = s.initialised := rfl
@[simp] theorem State.refuse_refused (s : State) (r : RefusalReason) :
    (s.refuse r).refused = true := rfl
@[simp] theorem State.refuse_lastRefusal (s : State) (r : RefusalReason) :
    (s.refuse r).lastRefusal = some r := rfl
@[simp] theorem State.refuse_results (s : State) (r : RefusalReason) :
    (s.refuse r).results = s.results := rfl
@[simp] theorem State.refuse_inbox (s : State) (r : RefusalReason) :
    (s.refuse r).inbox = s.inbox := rfl
@[simp] theorem State.refuse_config (s : State) (r : RefusalReason) :
    (s.refuse r).config = s.config := rfl

@[simp] theorem mapPorts_get {α : Type} (f : α → α) (t : PerPort α) (p : Port) :
    (mapPorts f t).get p = f (t.get p) := by cases p <;> rfl
theorem mapPorts_set {α : Type} (f : α → α) (t : PerPort α) (p : Port) (v : α) :
    mapPorts f (t.set p v) = (mapPorts f t).set p (f v) := by cases p <;> rfl

end Machine
end Sys2Proof
end

