-- ==== Sys2Proof/Laws/Ops.lean ====
section
/-! SUPPORT. What each shared operation can do: the port and initialisation guards, the extra cell, the cycle arithmetic, the multiplexer, and one equation per transaction. -/

namespace Sys2Proof.Machine

@[simp] theorem portOfIndex_index (p : Port) : portOfIndex? p.index = some p := by cases p <;> rfl

theorem portOfIndex_eq_some {n : Nat} {p : Port} (h : portOfIndex? n = some p) : n = p.index := by
  unfold portOfIndex? at h
  split at h <;> cases h <;> rfl

theorem portOfIndex_eq_none_iff (n : Nat) : portOfIndex? n = none ↔ 2 ≤ n := by
  match n with
  | 0 => simp [portOfIndex?]
  | 1 => simp [portOfIndex?]
  | n + 2 => simp [portOfIndex?]

theorem atPort_index (p : Port) (s : State) (body : Port → Host.Outcome State Fault Refusal) :
    atPort p.index s body = body p := by simp [atPort]

theorem atPort_out_of_range {n : Nat} (h : 2 ≤ n) (s : State)
    (body : Port → Host.Outcome State Fault Refusal) :
    atPort n s body = .next (s.refuse .portOutOfRange) := by
  simp [atPort, (portOfIndex_eq_none_iff n).2 h]

theorem atInstance_ready {p : Port} {s : State} (h : s.initialised.get p = true)
    (body : Port → Host.Outcome State Fault Refusal) : atInstance p.index s body = body p := by
  simp [atInstance, atPort_index, h]

theorem atInstance_not_ready {p : Port} {s : State} (h : s.initialised.get p = false)
    (body : Port → Host.Outcome State Fault Refusal) :
    atInstance p.index s body = .next (s.refuse .notInitialised) := by
  simp [atInstance, atPort_index, h]

/-- Everything the guard of READ and WRITE can do. -/
theorem atInstance_cases (n : Nat) (s : State) (body : Port → Host.Outcome State Fault Refusal) :
    (∃ p, n = p.index ∧ s.initialised.get p = true ∧ atInstance n s body = body p) ∨
    (∃ r, atInstance n s body = .next (s.refuse r)) := by
  cases hn : portOfIndex? n with
  | none => exact .inr ⟨.portOutOfRange, by simp [atInstance, atPort, hn]⟩
  | some p =>
    obtain rfl := portOfIndex_eq_some hn
    cases hi : s.initialised.get p with
    | false => exact .inr ⟨_, atInstance_not_ready hi body⟩
    | true => exact .inl ⟨p, rfl, hi, atInstance_ready hi body⟩

/-- A place after a write to the extra cell, without the case split on the value it held. -/
theorem afterAuxWrite_eq (aliased place : AuxAlias) (old new : Byte) :
    afterAuxWrite aliased place old new = if aliased = place then new else old := by
  unfold afterAuxWrite
  split
  · next h => simp [h]
  · rfl

/-- A write of the extra cell where no READ samples it (R29). -/
theorem writeAux_unsampled {s : State} {p : Port} (h : s.config.auxAlias.get p = .unsampled) (v : Byte) :
    s.writeAux p v = { s with aux := s.aux.set p v } := by
  simp only [State.writeAux, h, afterAuxWrite_eq]
  cases p <;> rfl

/-- A write of the extra cell where it is the port's own Z (R29). -/
theorem writeAux_ownZ {s : State} {p : Port} (h : s.config.auxAlias.get p = .ownZ) (v : Byte) :
    s.writeAux p v = s.setSnap p { s.snap.get p with z := v } := by
  simp only [State.writeAux, State.setSnap, h, afterAuxWrite_eq]
  cases p <;> rfl

/-- A write of the extra cell where it is the other port's X (R29). -/
theorem writeAux_otherX {s : State} {p : Port} (h : s.config.auxAlias.get p = .otherX) (v : Byte) :
    s.writeAux p v = s.setSnap p.other { s.snap.get p.other with x := v } := by
  simp only [State.writeAux, State.setSnap, h, afterAuxWrite_eq]
  cases p <;> rfl

/-- A write of the extra cell where it is the other port's Y (R29). -/
theorem writeAux_otherY {s : State} {p : Port} (h : s.config.auxAlias.get p = .otherY) (v : Byte) :
    s.writeAux p v = s.setSnap p.other { s.snap.get p.other with y := v } := by
  simp only [State.writeAux, State.setSnap, h, afterAuxWrite_eq]
  cases p <;> rfl

/-- A write of the extra cell is read back through the alias, whatever the alias is (R29). -/
theorem readAux_writeAux (s : State) (p : Port) (v : Byte) : (s.writeAux p v).readAux p = v := by
  unfold State.readAux
  rw [State.writeAux_config]
  cases h : s.config.auxAlias.get p
  · simp [writeAux_unsampled h]
  · simp [writeAux_ownZ h]
  · simp [writeAux_otherX h]
  · simp [writeAux_otherY h]

/-- The raw button masks are out of reach of every alias (R29, R30). -/
theorem writeAux_snap_b (s : State) (p q : Port) (v : Byte) :
    ((s.writeAux p v).snap.get q).b = (s.snap.get q).b := by
  cases p <;> cases q <;> rfl

theorem centreAxes_snap_b (s : State) (p q : Port) :
    ((s.centreAxes p).snap.get q).b = (s.snap.get q).b := by
  rw [State.centreAxes, writeAux_snap_b]
  cases p <;> cases q <;> rfl

/-- An advance lands on a group base: the next one, and at most 32 (R24, R89). -/
theorem advancedCycle_toNat (c : CycleReg) :
    (advancedCycle c).toNat = min (8 * (c.toNat / 8 + 1)) 32 := by
  revert c; decide

/-- A READ keeps the group and counts the sub-cycle modulo 8 (R104). -/
theorem nextSubCycle_toNat (c : CycleReg) :
    (nextSubCycle c).toNat = 8 * (c.toNat / 8) + (c.toNat + 1) % 8 := by
  revert c; decide

theorem cycleSlot_eq (c : CycleReg) : cycleSlot c = c.toNat / 4 := by
  revert c; decide

theorem cycleGroup_eq (c : CycleReg) : cycleGroup c = c.toNat / 8 := by
  revert c; decide

theorem cycleSub_eq (c : CycleReg) : cycleSub c = c.toNat % 8 := by
  revert c; decide

theorem cycleBase_toNat (c : CycleReg) : (cycleBase c).toNat = 8 * cycleGroup c := by
  revert c; decide

theorem notReady_eq (c : CycleReg) : notReady c = decide (c.toNat % 4 = 0) := by
  revert c; decide

theorem cycleHalf_eq (c : CycleReg) : cycleHalf c = decide (4 ≤ c.toNat % 8) := by
  revert c; decide

/-- The multiplexer answers exactly on the ten slots of R68. -/
theorem payload_isSome_iff (slot : Nat) (v : Snapshot) :
    (payload? slot v).isSome = true ↔ slot ≤ 9 := by
  match slot with
  | 0 | 1 | 2 | 3 | 4 | 5 | 6 | 7 | 8 | 9 => simp [payload?]
  | n + 10 => simp [payload?]

/-- A READ that is neither refused nor at an unreachable slot, whole (R95). -/
theorem execRead_ready {p : Port} {s : State} {nib : Nibble} (hi : s.initialised.get p = true)
    (hn : payload? (cycleSlot (s.inst.get p).cycle) (s.snap.get p) = some nib) :
    execRead p.index s = .next
      ((s.setInst p (instanceAfterRead s.config.latencyModel (s.inst.get p))).returnByte p
        (resultByte s.config.tlBit (s.inst.get p).cycle nib)) := by
  rw [execRead, atInstance_ready hi, readAt, hn]

/-- A WRITE that is not refused, whole (R85). -/
theorem execWrite_ready {p : Port} {s : State} (hi : s.initialised.get p = true) (data mask : Byte) :
    execWrite p.index data mask s =
      .next (s.setInst p (instanceAfterWrite (s.inst.get p) data mask)) := by
  simp [execWrite, atInstance_ready hi]

/-- A RESET of a port that exists, whole (R80). -/
theorem execReset_index (p : Port) (s : State) :
    execReset p.index s = .next (((s.centreAxes p).setInst p .afterReset).markInitialised p) := by
  simp [execReset, atPort_index]

/-- Everything a READ can do. -/
theorem execRead_cases (n : Nat) (s : State) :
    (∃ p nib, n = p.index ∧ s.initialised.get p = true ∧
      payload? (cycleSlot (s.inst.get p).cycle) (s.snap.get p) = some nib ∧
      execRead n s = .next
        ((s.setInst p (instanceAfterRead s.config.latencyModel (s.inst.get p))).returnByte p
          (resultByte s.config.tlBit (s.inst.get p).cycle nib))) ∨
    (∃ p, n = p.index ∧ s.initialised.get p = true ∧ 40 ≤ (s.inst.get p).cycle.toNat ∧
      execRead n s = .fault .unreachableSlot) ∨
    (∃ r, execRead n s = .next (s.refuse r)) := by
  obtain ⟨p, rfl, hi, h⟩ | ⟨r, h⟩ := atInstance_cases n s (readAt s)
  · cases hn : payload? (cycleSlot (s.inst.get p).cycle) (s.snap.get p) with
    | some nib => exact .inl ⟨p, nib, rfl, hi, hn, execRead_ready hi hn⟩
    | none =>
      refine .inr (.inl ⟨p, rfl, hi, ?_, by rw [execRead, h, readAt, hn]⟩)
      have := (payload_isSome_iff (cycleSlot (s.inst.get p).cycle) (s.snap.get p)).not
      rw [hn, cycleSlot_eq] at this
      simp at this
      omega
  · exact .inr (.inr ⟨r, h⟩)

/-- Everything a WRITE can do. -/
theorem execWrite_cases (n : Nat) (data mask : Byte) (s : State) :
    (∃ p, n = p.index ∧ s.initialised.get p = true ∧ execWrite n data mask s =
      .next (s.setInst p (instanceAfterWrite (s.inst.get p) data mask))) ∨
    (∃ r, execWrite n data mask s = .next (s.refuse r)) := by
  obtain ⟨p, rfl, hi, -⟩ | ⟨r, h⟩ := atInstance_cases n s fun p =>
    .next (s.setInst p (instanceAfterWrite (s.inst.get p) data mask))
  · exact .inl ⟨p, rfl, hi, execWrite_ready hi data mask⟩
  · exact .inr ⟨r, h⟩

/-- Everything a RESET can do. -/
theorem execReset_cases (n : Nat) (s : State) :
    (∃ p, n = p.index ∧
      execReset n s = .next (((s.centreAxes p).setInst p .afterReset).markInitialised p)) ∨
    execReset n s = .next (s.refuse .portOutOfRange) := by
  cases hn : portOfIndex? n with
  | none => exact .inr (by simp [execReset, atPort, hn])
  | some p =>
    obtain rfl := portOfIndex_eq_some hn
    exact .inl ⟨p, rfl, execReset_index p s⟩

/-- The cycle a WRITE leaves: unchanged, 0, or the advanced one. -/
theorem instanceAfterWrite_cycle_cases (v : Instance) (data mask : Byte) :
    (instanceAfterWrite v data mask).cycle = v.cycle ∨
    (instanceAfterWrite v data mask).cycle = 0#6 ∨
    (instanceAfterWrite v data mask).cycle = advancedCycle v.cycle := by
  simp only [instanceAfterWrite]
  split
  · exact .inr (.inl rfl)
  · split
    · exact .inr (.inr rfl)
    · exact .inl rfl

/-- Every WRITE stores the merged byte (R90). -/
theorem instanceAfterWrite_shadow (v : Instance) (data mask : Byte) :
    (instanceAfterWrite v data mask).shadow = mergedByte v.shadow data mask := by
  simp only [instanceAfterWrite]
  split
  · rfl
  · split <;> rfl

end Sys2Proof.Machine
end

