-- ==== Sys2Proof/Laws/Step.lean ====
section
/-! SUPPORT. What a step can do, by the event it takes, and what placing a word does. -/

namespace Sys2Proof.Machine

theorem step_idle {s : State} (h : s.inbox = []) : step s = .next s := by
  simp [step, h]

theorem step_event {s : State} {e : Event} {rest : List Event} (h : s.inbox = e :: rest) :
    step s = runEvent e { s with inbox := rest } := by
  simp [step, h]

@[simp] theorem withFetchWord_inbox (s : State) (nbits w : Nat) :
    (s.withFetchWord nbits w).inbox = tableWordEvent nbits w :: s.inbox := rfl

theorem step_withFetchWord (s : State) (nbits w : Nat) :
    step (s.withFetchWord nbits w) = runWord (w % 2 ^ nbits) s := rfl

theorem runSteps_zero (s : State) : runSteps 0 s = .next s := rfl

theorem runSteps_next {k : Nat} {s t : State} (h : step s = .next t) :
    runSteps (k + 1) s = runSteps k t := by
  simp only [runSteps, Host.Core.run, core, h]

theorem runSteps_fault {k : Nat} {s : State} {r : Fault} (h : step s = .fault r) :
    runSteps (k + 1) s = .fault r := by
  simp only [runSteps, Host.Core.run, core, h]

theorem runSteps_refused {k : Nat} {s : State} {r : Refusal} (h : step s = .refused r) :
    runSteps (k + 1) s = .refused r := by
  simp only [runSteps, Host.Core.run, core, h]

/-- Everything a step can do: hold, refuse an undecodable word, run one transaction, or take one
collaborator's write. -/
theorem step_cases (s : State) :
    (s.inbox = [] ∧ step s = .next s) ∨
    (∃ rest r, step s = .next (State.refuse { s with inbox := rest } r)) ∨
    (∃ rest i, step s = exec i { s with inbox := rest }) ∨
    (∃ rest c, step s = .next (applyCollab c { s with inbox := rest })) := by
  cases h : s.inbox with
  | nil => exact .inl ⟨rfl, step_idle h⟩
  | cons e rest =>
    rw [step_event h]
    cases e with
    | word w =>
      cases hd : decode w with
      | error r => exact .inr (.inl ⟨rest, r, by simp [runEvent, runWord, hd]⟩)
      | ok i => exact .inr (.inr (.inl ⟨rest, i, by simp [runEvent, runWord, hd]⟩))
    | call i => exact .inr (.inr (.inl ⟨rest, i, rfl⟩))
    | collab c => exact .inr (.inr (.inr ⟨rest, c, rfl⟩))

/-- A collaborator's write touches the environment only (R8). -/
theorem applyCollab_inst (c : CollabWrite) (s : State) : (applyCollab c s).inst = s.inst := by
  cases c <;> rfl

theorem applyCollab_bookkeeping (c : CollabWrite) (s : State) :
    (applyCollab c s).initialised = s.initialised ∧ (applyCollab c s).refused = s.refused ∧
    (applyCollab c s).lastRefusal = s.lastRefusal ∧ (applyCollab c s).results = s.results ∧
    (applyCollab c s).inbox = s.inbox ∧ (applyCollab c s).config = s.config := by
  cases c <;> exact ⟨rfl, rfl, rfl, rfl, rfl, rfl⟩

end Sys2Proof.Machine
end

