-- ==== Sys2Proof/Certificates/Slice0/Obligations.lean ====
section
/-! DEFINITION. The statements for the provers. In every one the configuration is part of the state, so
TL_BIT, LATENCY_MODEL and AUX_ALIAS are arbitrary unless a premise names them (R9). -/

open Sys2Proof Sys2Proof.Machine

/-! ## Words -/

/-- Words written out from the fields of R61 and the expansions of R74. -/
def Obligations.SpecWordsDecodeToTheirCalls : Prop :=
  decode 0b00000000000000000000 = .ok (.read 0) ∧
  decode 0b00000000000000000100 = .ok (.read 1) ∧
  decode 0b00000000000000000010 = .ok (.reset 0) ∧
  decode 0b00000000000000000110 = .ok (.reset 1) ∧
  decode 0x40001 = .ok (.write 0 0x00#8 0x40#8) ∧
  decode 0xFFBF1 = .ok (.write 0 0xBF#8 0xFF#8) ∧
  ∀ p : Port, decode (0x40001 ||| p.index <<< 2) = .ok (.th0 p) ∧
    decode (0x40401 ||| p.index <<< 2) = .ok (.th1 p)

/-- Every well-formed call has a 20-bit word, and the word decodes to that call (R61). -/
def Obligations.DecodeOfEncodeIsTheCall : Prop :=
  ∀ i : Instr, i.wf = true → encode i < 2 ^ 20 ∧ decode (encode i) = .ok i

/-- A word that decodes is the word of the call it decodes to, so no two words mean one call (R61, D2). -/
def Obligations.EncodeOfDecodeIsTheWord : Prop :=
  ∀ (w : Nat) (i : Instr), decode w = .ok i → i.wf = true ∧ encode i = w

/-- R62 whole: the refusals in their order, the three calls, and the word wider than 20 bits. -/
def Obligations.DecodeOfEveryWord : Prop :=
  ∀ w : Nat,
    (2 ^ 20 ≤ w → decode w = .error .reservedField) ∧
    (w < 2 ^ 20 → w % 4 = 3 → decode w = .error .reservedOp) ∧
    (w < 2 ^ 20 → w % 4 ≠ 3 → w.testBit 3 = true → decode w = .error .reservedBit) ∧
    (w < 2 ^ 20 → w % 4 = 0 ∨ w % 4 = 2 → w.testBit 3 = false → w / 16 ≠ 0 →
      decode w = .error .reservedField) ∧
    (w < 2 ^ 20 → w % 4 = 0 → w.testBit 3 = false → w / 16 = 0 →
      decode w = .ok (.read (w / 4 % 2))) ∧
    (w < 2 ^ 20 → w % 4 = 1 → w.testBit 3 = false →
      decode w = .ok (.write (w / 4 % 2) (BitVec.ofNat 8 (w / 16 % 256)) (BitVec.ofNat 8 (w / 4096)))) ∧
    (w < 2 ^ 20 → w % 4 = 2 → w.testBit 3 = false → w / 16 = 0 →
      decode w = .ok (.reset (w / 4 % 2)))

/-! ## Steps -/

/-- The next word in order runs as the call it decodes to, and is gone from the order (R45, R46, R61). -/
def Obligations.StepRunsTheDecodedWord : Prop :=
  ∀ (s : State) (w : Nat) (rest : List Event) (i : Instr),
    s.inbox = .word w :: rest → decode w = .ok i → step s = exec i { s with inbox := rest }

/-- A word placed for the next step runs as the instruction the table's decoder reads from it. -/
def Obligations.StepRunsThePlacedTableWord : Prop :=
  ∀ (s : State) (nbits w : Nat) (i : Instr),
    decodeTableWord nbits w = some i → step (s.withFetchWord nbits w) = exec i s

/-- A call runs as itself, and with nothing to come the state holds (R7, R46, R134). -/
def Obligations.StepRunsTheCallAndHoldsWhenIdle : Prop :=
  (∀ (s : State) (i : Instr) (rest : List Event),
    s.inbox = .call i :: rest → step s = exec i { s with inbox := rest }) ∧
  (∀ s : State, s.inbox = [] → step s = .next s)

/-- A write of the collaborator replaces the one snapshot field it names and nothing else (R8, R30). -/
def Obligations.CollaboratorWritesOneField : Prop :=
  ∀ (s : State) (p : Port) (rest : List Event),
    (∀ v, s.inbox = .collab (.x p v) :: rest →
      step s = .next { s with inbox := rest, snap := s.snap.set p { s.snap.get p with x := v } }) ∧
    (∀ v, s.inbox = .collab (.y p v) :: rest →
      step s = .next { s with inbox := rest, snap := s.snap.set p { s.snap.get p with y := v } }) ∧
    (∀ v, s.inbox = .collab (.z p v) :: rest →
      step s = .next { s with inbox := rest, snap := s.snap.set p { s.snap.get p with z := v } }) ∧
    (∀ v, s.inbox = .collab (.b p v) :: rest →
      step s = .next { s with inbox := rest, snap := s.snap.set p { s.snap.get p with b := v } })

/-- A write of the extra cell lands on the field its alias names, and on the cell's own storage where it
names none (R29). That the collaborator may write this cell is the model's reading of R30 (log entry 9). -/
def Obligations.CollaboratorWriteOfTheExtraCellLandsOnItsAlias : Prop :=
  ∀ (s : State) (p : Port) (v : Byte) (rest : List Event), s.inbox = .collab (.aux p v) :: rest →
    ∃ t, step s = .next t ∧ t.readAux p = v ∧ t.inst = s.inst ∧ t.initialised = s.initialised ∧
      t.refused = s.refused ∧ t.lastRefusal = s.lastRefusal ∧ t.results = s.results ∧
      t.inbox = rest ∧ t.config = s.config ∧
      match s.config.auxAlias.get p with
      | .unsampled => t.snap = s.snap ∧ t.aux = s.aux.set p v
      | .ownZ => t.snap = s.snap.set p { s.snap.get p with z := v } ∧ t.aux = s.aux
      | .otherX => t.snap = s.snap.set p.other { s.snap.get p.other with x := v } ∧ t.aux = s.aux
      | .otherY => t.snap = s.snap.set p.other { s.snap.get p.other with y := v } ∧ t.aux = s.aux

/-! ## Refusals -/

/-- R122: the five reasons, and that a refused transaction changes nothing but the sticky mark and the
reason it reports. -/
def Obligations.RefusedTransactionOnlySetsTheMark : Prop :=
  ∀ (s : State) (rest : List Event),
    let refusedFor (r : RefusalReason) : Host.Outcome State Fault Refusal :=
      .next { s with inbox := rest, refused := true, lastRefusal := some r }
    (∀ w, s.inbox = .word w :: rest →
      (w < 2 ^ 20 → w % 4 = 3 → step s = refusedFor .reservedOp) ∧
      (w < 2 ^ 20 → w % 4 ≠ 3 → w.testBit 3 = true → step s = refusedFor .reservedBit) ∧
      (2 ^ 20 ≤ w → step s = refusedFor .reservedField) ∧
      (w < 2 ^ 20 → w % 4 = 0 ∨ w % 4 = 2 → w.testBit 3 = false → 16 ≤ w →
        step s = refusedFor .reservedField)) ∧
    (∀ i : Instr, s.inbox = .call i :: rest → 2 ≤ i.port → step s = refusedFor .portOutOfRange) ∧
    (∀ p : Port, s.initialised.get p = false →
      (s.inbox = .call (.read p.index) :: rest → step s = refusedFor .notInitialised) ∧
      (∀ d m, s.inbox = .call (.write p.index d m) :: rest → step s = refusedFor .notInitialised))

/-- R123: READ and WRITE are refused before the port's first RESET, and RESET is not. -/
def Obligations.OnlyResetRunsBeforeTheFirstReset : Prop :=
  ∀ (s : State) (p : Port), s.initialised.get p = false →
    exec (.read p.index) s = .next { s with refused := true, lastRefusal := some .notInitialised } ∧
    (∀ d m, exec (.write p.index d m) s =
      .next { s with refused := true, lastRefusal := some .notInitialised }) ∧
    ∃ t, exec (.reset p.index) s = .next t ∧ t.refused = s.refused ∧
      t.lastRefusal = s.lastRefusal ∧ t.initialised = s.initialised.set p true

/-! ## RESET -/

/-- R81: the registers RESET leaves, in every state, mid-frame and before any other transaction. -/
def Obligations.ResetSetsTheRegisters : Prop :=
  ∀ (s : State) (p : Port), ∃ t, exec (.reset p.index) s = .next t ∧
    (t.inst.get p).shadow = 0x40#8 ∧ (t.inst.get p).cycle = 0#6 ∧ (t.inst.get p).latency = 0

/-- R82: RESET writes 128 to the port's three axes and to the extra cell, wherever its alias puts it. -/
def Obligations.ResetCentresTheAxesAndTheExtraCell : Prop :=
  ∀ (s : State) (p : Port), ∃ t, exec (.reset p.index) s = .next t ∧
    t.snap.get p = { s.snap.get p with x := 128#8, y := 128#8, z := 128#8 } ∧
    t.readAux p = 128#8 ∧
    match s.config.auxAlias.get p with
    | .unsampled => t.snap.get p.other = s.snap.get p.other ∧ t.aux.get p = 128#8
    | .ownZ => t.snap.get p.other = s.snap.get p.other
    | .otherX => t.snap.get p.other = { s.snap.get p.other with x := 128#8 }
    | .otherY => t.snap.get p.other = { s.snap.get p.other with y := 128#8 }

/-- The frame of RESET (R83, R140): the other instance, both raw button masks, the other port's Z and
its fields no alias names, the other port's extra storage, and all the bookkeeping but one mark. -/
def Obligations.ResetLeavesTheRest : Prop :=
  ∀ (s : State) (p : Port), ∃ t, exec (.reset p.index) s = .next t ∧
    t.inst.get p.other = s.inst.get p.other ∧
    t.initialised = s.initialised.set p true ∧
    (∀ q, (t.snap.get q).b = (s.snap.get q).b) ∧
    (t.snap.get p.other).z = (s.snap.get p.other).z ∧
    (s.config.auxAlias.get p ≠ .otherX → (t.snap.get p.other).x = (s.snap.get p.other).x) ∧
    (s.config.auxAlias.get p ≠ .otherY → (t.snap.get p.other).y = (s.snap.get p.other).y) ∧
    t.aux.get p.other = s.aux.get p.other ∧
    (s.config.auxAlias.get p ≠ .unsampled → t.aux = s.aux) ∧
    t.refused = s.refused ∧ t.lastRefusal = s.lastRefusal ∧ t.results = s.results ∧
    t.inbox = s.inbox ∧ t.config = s.config

/-- Two RESETs in a row leave the same state as one (R83). -/
def Obligations.ResetIsIdempotent : Prop :=
  ∀ (s : State) (p : Port), ∃ t, exec (.reset p.index) s = .next t ∧
    exec (.reset p.index) t = .next t

/-- The two ports may be reset in either order (R143): the state is the same, under every alias. -/
def Obligations.ResetsOfTheTwoPortsCommute : Prop :=
  ∀ (s : State) (p : Port), ∃ t u v,
    exec (.reset p.index) s = .next t ∧ exec (.reset p.other.index) t = .next v ∧
    exec (.reset p.other.index) s = .next u ∧ exec (.reset p.index) u = .next v

/-- What reset leaves, in every configuration: the values of R140 on both ports.
The value of B there is the model's choice and is not stated (log entry 7). -/
def Obligations.ResetStateHoldsTheResetValues : Prop :=
  ∀ (config : Config) (p : Port),
    let s := State.resetWith config
    (s.inst.get p).shadow = 0x40#8 ∧ (s.inst.get p).cycle = 0#6 ∧ (s.inst.get p).latency = 0 ∧
    (s.snap.get p).x = 128#8 ∧ (s.snap.get p).y = 128#8 ∧ (s.snap.get p).z = 128#8 ∧
    s.readAux p = 128#8 ∧ s.initialised.get p = true ∧ s.refused = false

/-- From power-on, whatever the registers and the environment hold, the words of RESET 0 and RESET 1
reach the registers, axes and extra cells of the reset state (R140, R141, R143). -/
def Obligations.TwoResetsFromPowerOnReachTheResetState : Prop :=
  ∀ (config : Config) (inst : PerPort Instance) (snap : PerPort Snapshot) (aux : PerPort Byte),
    ∃ t, runSteps 2 (State.powerOn config inst snap aux [.word 0x00002, .word 0x00006]) =
        .next t ∧
      t.inst = (State.resetWith config).inst ∧
      t.initialised = (State.resetWith config).initialised ∧
      t.refused = false ∧ t.lastRefusal = none ∧ t.results = [] ∧ t.inbox = [] ∧ t.config = config ∧
      ∀ p, t.readAux p = 128#8 ∧
        t.snap.get p = { x := 128#8, y := 128#8, z := 128#8, b := (snap.get p).b }

/-! ## WRITE -/

/-- R88: a falling edge of TH restarts the frame, whatever cycle and latency were; the merged byte is
stored and nothing else changes. -/
def Obligations.WriteOnFallingEdgeResetsTheFrame : Prop :=
  ∀ (s : State) (p : Port) (d m : Byte), s.initialised.get p = true →
    let v := s.inst.get p
    let merged := (v.shadow &&& ~~~m) ||| (d &&& m)
    v.shadow.getLsbD 6 = true → merged.getLsbD 6 = false →
    exec (.write p.index d m) s =
      .next { s with inst := s.inst.set p { shadow := merged, cycle := 0#6, latency := 0 } }

/-- R89: with no falling edge, a WRITE advances to the next group base when latency is over 3 and
leaves cycle alone when it is not; latency stays, the merged byte is stored, nothing else changes. -/
def Obligations.WriteWithoutFallingEdgeAdvancesOrIsDebounced : Prop :=
  ∀ (s : State) (p : Port) (d m : Byte), s.initialised.get p = true →
    let v := s.inst.get p
    let merged := (v.shadow &&& ~~~m) ||| (d &&& m)
    ¬ (v.shadow.getLsbD 6 = true ∧ merged.getLsbD 6 = false) →
    (3 < v.latency → exec (.write p.index d m) s =
      .next { s with
        inst := s.inst.set p {
          shadow := merged
          cycle := BitVec.ofNat 6 (min ((v.cycle &&& ~~~7#6).toNat + 8) 32)
          latency := v.latency } }) ∧
    (v.latency ≤ 3 → exec (.write p.index d m) s =
      .next { s with
        inst := s.inst.set p { shadow := merged, cycle := v.cycle, latency := v.latency } })

/-- R71 and R90: after any WRITE that runs, a shadow bit is the data bit where the mask has a 1 and its
own old value where the mask has a 0. -/
def Obligations.WriteStoresTheMaskedBits : Prop :=
  ∀ (s : State) (p : Port) (d m : Byte), s.initialised.get p = true →
    ∃ t, exec (.write p.index d m) s = .next t ∧ ∀ k < 8, (t.inst.get p).shadow.getLsbD k =
      if m.getLsbD k then d.getLsbD k else (s.inst.get p).shadow.getLsbD k

/-- R24: after a WRITE, cycle is unchanged, 0, or one of 8, 16, 24, 32, from every state. -/
def Obligations.WriteLeavesCycleOrAGroupBase : Prop :=
  ∀ (s t : State) (n : Nat) (q : Port) (d m : Byte), exec (.write n d m) s = .next t →
    (t.inst.get q).cycle = (s.inst.get q).cycle ∨
    (t.inst.get q).cycle.toNat ∈ [0, 8, 16, 24, 32]

/-- R148 and R149: an advance lands on sub-cycle 0 of the next group, and group 4 is never left by one. -/
def Obligations.AdvanceLandsOnTheNextGroup : Prop :=
  ∀ (s : State) (p : Port) (d m : Byte), s.initialised.get p = true →
    (s.inst.get p).cycle.toNat ≤ 39 → 3 < (s.inst.get p).latency →
    ¬ ((s.inst.get p).shadow.getLsbD 6 = true ∧ m.getLsbD 6 = true ∧ d.getLsbD 6 = false) →
    ∃ t, exec (.write p.index d m) s = .next t ∧
      ((s.inst.get p).cycle.toNat < 32 →
        (t.inst.get p).cycle.toNat = 8 * ((s.inst.get p).cycle.toNat / 8 + 1)) ∧
      (32 ≤ (s.inst.get p).cycle.toNat → (t.inst.get p).cycle.toNat = 32)

/-- R87: only bit 6 is tested. Two WRITEs that start at the same cycle and latency and agree on bit 6
of the old and of the merged byte leave the same cycle and latency. -/
def Obligations.OnlyBitSixDecidesAWrite : Prop :=
  ∀ (s s' : State) (p : Port) (d m d' m' : Byte),
    s.initialised.get p = true → s'.initialised.get p = true →
    (s.inst.get p).cycle = (s'.inst.get p).cycle →
    (s.inst.get p).latency = (s'.inst.get p).latency →
    (s.inst.get p).shadow.getLsbD 6 = (s'.inst.get p).shadow.getLsbD 6 →
    (mergedByte (s.inst.get p).shadow d m).getLsbD 6 =
      (mergedByte (s'.inst.get p).shadow d' m').getLsbD 6 →
    ∃ t t', exec (.write p.index d m) s = .next t ∧ exec (.write p.index d' m') s' = .next t' ∧
      (t.inst.get p).cycle = (t'.inst.get p).cycle ∧
      (t.inst.get p).latency = (t'.inst.get p).latency

/-- R146: READs, and WRITEs that each toggle TH, keep the port in group 0 while TH is low and in group
0 or 1 while it is high. -/
def Obligations.TogglingHostStaysInGroupsZeroAndOne : Prop :=
  ∀ (s : State) (p : Port), s.initialised.get p = true → (s.inst.get p).WithinGroups01 →
    (∃ t, exec (.read p.index) s = .next t ∧ (t.inst.get p).WithinGroups01) ∧
    ∀ d m : Byte,
      (mergedByte (s.inst.get p).shadow d m).getLsbD 6 ≠ (s.inst.get p).shadow.getLsbD 6 →
      ∃ t, exec (.write p.index d m) s = .next t ∧ (t.inst.get p).WithinGroups01

/-- R145, R146 and R149: once latency is over 3 and TH is low, n+1 repeated TH0 transactions walk n+1
groups on and stop at group 4. -/
def Obligations.RepeatedTh0WalksTheGroups : Prop :=
  ∀ (n : Nat) (s : State) (p : Port) (rest : List Event), s.initialised.get p = true →
    (s.inst.get p).shadow.getLsbD 6 = false → 3 < (s.inst.get p).latency →
    (s.inst.get p).cycle.toNat ≤ 39 →
    s.inbox = List.replicate (n + 1) (.call (.th0 p)) ++ rest →
    runSteps (n + 1) s = .next { s with
      inbox := rest
      inst := s.inst.set p { s.inst.get p with
        cycle := BitVec.ofNat 6 (8 * min ((s.inst.get p).cycle.toNat / 8 + (n + 1)) 4) } }

/-! ## READ -/

/-- R67: the two status bits, on the cycle before the READ, in both placements of TL. Bit 7 is 0 and bit
6 is 1 in either (R66). -/
def Obligations.ReadStatusBits : Prop :=
  ∀ (s : State) (p : Port), s.initialised.get p = true → (s.inst.get p).cycle.toNat ≤ 39 →
    let c := (s.inst.get p).cycle
    ∃ t b, exec (.read p.index) s = .next t ∧ t.results = s.results ++ [⟨p, b⟩] ∧
      b.getLsbD 7 = false ∧ b.getLsbD 6 = true ∧
      (s.config.tlBit = .bit4 →
        b.getLsbD 4 = decide (4 ≤ c.toNat % 8) ∧ b.getLsbD 5 = decide (c.toNat % 4 = 0)) ∧
      (s.config.tlBit = .bit5 →
        b.getLsbD 4 = false ∧ b.getLsbD 5 = decide (c.toNat % 4 = 0 ∨ 4 ≤ c.toNat % 8))

/-- R68: the payload nibble, by the ten runs of cycle values. -/
def Obligations.ReadPayloadByCycle : Prop :=
  ∀ (s : State) (p : Port), s.initialised.get p = true → (s.inst.get p).cycle.toNat ≤ 39 →
    let c := (s.inst.get p).cycle.toNat
    let v := s.snap.get p
    ∃ t b, exec (.read p.index) s = .next t ∧ t.results = s.results ++ [⟨p, b⟩] ∧
      (c ≤ 3 → b.extractLsb' 0 4 = (~~~v.b).extractLsb' 8 4) ∧
      (4 ≤ c ∧ c ≤ 7 → b.extractLsb' 0 4 = (~~~v.b).extractLsb' 4 4) ∧
      (8 ≤ c ∧ c ≤ 11 → b.extractLsb' 0 4 = v.x.extractLsb' 4 4) ∧
      (12 ≤ c ∧ c ≤ 15 → b.extractLsb' 0 4 = v.y.extractLsb' 4 4) ∧
      (16 ≤ c ∧ c ≤ 19 → b.extractLsb' 0 4 = 0#4) ∧
      (20 ≤ c ∧ c ≤ 23 → b.extractLsb' 0 4 = v.z.extractLsb' 4 4) ∧
      (24 ≤ c ∧ c ≤ 27 → b.extractLsb' 0 4 = v.x.extractLsb' 0 4) ∧
      (28 ≤ c ∧ c ≤ 31 → b.extractLsb' 0 4 = v.y.extractLsb' 0 4) ∧
      (32 ≤ c ∧ c ≤ 35 → b.extractLsb' 0 4 = 0#4) ∧
      (36 ≤ c → b.extractLsb' 0 4 = v.z.extractLsb' 0 4)

/-- R69: the button bits are inverted, and raw bits 0..3 and 12..15 never appear in any result. -/
def Obligations.ReadInvertsTheButtons : Prop :=
  ∀ (s : State) (p : Port), s.initialised.get p = true → (s.inst.get p).cycle.toNat ≤ 39 →
    ∃ t b, exec (.read p.index) s = .next t ∧ t.results = s.results ++ [⟨p, b⟩] ∧
      (∀ k < 4, ((s.inst.get p).cycle.toNat ≤ 3 →
          b.getLsbD k = !(s.snap.get p).b.getLsbD (8 + k)) ∧
        (4 ≤ (s.inst.get p).cycle.toNat ∧ (s.inst.get p).cycle.toNat ≤ 7 →
          b.getLsbD k = !(s.snap.get p).b.getLsbD (4 + k))) ∧
      ∀ raw : ButtonMask, (∀ k, 4 ≤ k → k ≤ 11 → raw.getLsbD k = (s.snap.get p).b.getLsbD k) →
        ∃ u, exec (.read p.index)
            { s with snap := s.snap.set p { s.snap.get p with b := raw } } = .next u ∧
          u.results = s.results ++ [⟨p, b⟩]

/-- R73: with TL at bit 4 every result lies in 0x40..0x7F, and its high nibble is the one its sub-cycle
gives. -/
def Obligations.ReadResultBySubCycle : Prop :=
  ∀ (s : State) (p : Port), s.initialised.get p = true → (s.inst.get p).cycle.toNat ≤ 39 →
    s.config.tlBit = .bit4 →
    let sub := (s.inst.get p).cycle.toNat % 8
    ∃ t b n, exec (.read p.index) s = .next t ∧ t.results = s.results ++ [⟨p, b⟩] ∧
      payload? ((s.inst.get p).cycle.toNat / 4) (s.snap.get p) = some n ∧
      0x40 ≤ b.toNat ∧ b.toNat ≤ 0x7F ∧
      (sub = 0 → b = 0x60#8 ||| n.setWidth 8) ∧
      (1 ≤ sub ∧ sub ≤ 3 → b = 0x40#8 ||| n.setWidth 8) ∧
      (sub = 4 → b = 0x70#8 ||| n.setWidth 8) ∧
      (5 ≤ sub → b = 0x50#8 ||| n.setWidth 8)

/-- R104, R105 and R108, with READ's frame: a READ advances the sub-cycle, counts itself, returns one
byte and changes nothing else. Latency is unbounded (R26). -/
def Obligations.ReadAdvancesThePosition : Prop :=
  ∀ (s : State) (p : Port), s.initialised.get p = true → (s.inst.get p).cycle.toNat ≤ 39 →
    s.config.latencyModel = .unbounded →
    let v := s.inst.get p
    ∃ b, exec (.read p.index) s = .next { s with
      inst := s.inst.set p {
          shadow := v.shadow
          cycle := (v.cycle &&& ~~~7#6) ||| ((v.cycle + 1#6) &&& 7#6)
          latency := v.latency + 1 }
      results := s.results ++ [⟨p, b⟩] }

/-- R106: a READ result is a function of the port's cycle and snapshot alone. Two states that agree on
those, and have one TL_BIT, return the same byte, whatever else differs. -/
def Obligations.ReadResultDependsOnCycleAndSnapshot : Prop :=
  ∀ (s s' : State) (p : Port), s.initialised.get p = true → s'.initialised.get p = true →
    (s.inst.get p).cycle = (s'.inst.get p).cycle → s.snap.get p = s'.snap.get p →
    s.config.tlBit = s'.config.tlBit → (s.inst.get p).cycle.toNat ≤ 39 →
    ∃ t t' b, exec (.read p.index) s = .next t ∧ exec (.read p.index) s' = .next t' ∧
      t.results = s.results ++ [⟨p, b⟩] ∧ t'.results = s'.results ++ [⟨p, b⟩]

/-- R96: a READ uses only the field its slot selects. Replacing any field the slot does not select
changes no result. -/
def Obligations.ReadUsesTheSelectedFieldOnly : Prop :=
  ∀ (s : State) (p : Port), s.initialised.get p = true → (s.inst.get p).cycle.toNat ≤ 39 →
    let slot := (s.inst.get p).cycle.toNat / 4
    ∃ t b, exec (.read p.index) s = .next t ∧ t.results = s.results ++ [⟨p, b⟩] ∧
      ∀ v : Snapshot,
        (slot = 0 ∨ slot = 1 → v.b = (s.snap.get p).b) →
        (slot = 2 ∨ slot = 6 → v.x = (s.snap.get p).x) →
        (slot = 3 ∨ slot = 7 → v.y = (s.snap.get p).y) →
        (slot = 5 ∨ slot = 9 → v.z = (s.snap.get p).z) →
        ∃ u, exec (.read p.index) { s with snap := s.snap.set p v } = .next u ∧
          u.results = s.results ++ [⟨p, b⟩]

/-- R142: the first READ after a RESET returns slot 0 with not-ready set and TL clear. -/
def Obligations.FirstReadAfterResetReturnsSlotZero : Prop :=
  ∀ (s : State) (p : Port), ∃ t u,
    exec (.reset p.index) s = .next t ∧ exec (.read p.index) t = .next u ∧
    u.results = s.results ++
      [⟨p, 0x60#8 ||| ((~~~(s.snap.get p).b).extractLsb' 8 4).setWidth 8⟩] ∧
    (u.inst.get p).cycle = 1#6

/-- R49: a READ sees the collaborator's last write to the field it samples, for each of the four fields at
both of its slots: B at slots 0 and 1, X at 2 and 6, Y at 3 and 7, Z at 5 and 9. Where a written field is
not the one sampled the READ completes as well. The list of events is the model's own (log entry 4). -/
def Obligations.ReadSeesTheLastCollaboratorWrite : Prop :=
  ∀ (s : State) (p : Port) (rest : List Event), s.initialised.get p = true →
    (s.inst.get p).cycle.toNat ≤ 39 →
    let c := (s.inst.get p).cycle.toNat
    (∀ v : ButtonMask, s.inbox = .collab (.b p v) :: .call (.read p.index) :: rest →
      ∃ t b, runSteps 2 s = .next t ∧ t.results = s.results ++ [⟨p, b⟩] ∧ (t.snap.get p).b = v ∧
        (c ≤ 3 → b.extractLsb' 0 4 = (~~~v).extractLsb' 8 4) ∧
        (4 ≤ c ∧ c ≤ 7 → b.extractLsb' 0 4 = (~~~v).extractLsb' 4 4)) ∧
    (∀ v : Byte, s.inbox = .collab (.x p v) :: .call (.read p.index) :: rest →
      ∃ t b, runSteps 2 s = .next t ∧ t.results = s.results ++ [⟨p, b⟩] ∧ (t.snap.get p).x = v ∧
        (8 ≤ c ∧ c ≤ 11 → b.extractLsb' 0 4 = v.extractLsb' 4 4) ∧
        (24 ≤ c ∧ c ≤ 27 → b.extractLsb' 0 4 = v.extractLsb' 0 4)) ∧
    (∀ v : Byte, s.inbox = .collab (.y p v) :: .call (.read p.index) :: rest →
      ∃ t b, runSteps 2 s = .next t ∧ t.results = s.results ++ [⟨p, b⟩] ∧ (t.snap.get p).y = v ∧
        (12 ≤ c ∧ c ≤ 15 → b.extractLsb' 0 4 = v.extractLsb' 4 4) ∧
        (28 ≤ c ∧ c ≤ 31 → b.extractLsb' 0 4 = v.extractLsb' 0 4)) ∧
    (∀ v : Byte, s.inbox = .collab (.z p v) :: .call (.read p.index) :: rest →
      ∃ t b, runSteps 2 s = .next t ∧ t.results = s.results ++ [⟨p, b⟩] ∧ (t.snap.get p).z = v ∧
        (20 ≤ c ∧ c ≤ 23 → b.extractLsb' 0 4 = v.extractLsb' 4 4) ∧
        (36 ≤ c → b.extractLsb' 0 4 = v.extractLsb' 0 4))

/-- R124: a READ at a slot of 10 or more stops with the one fault. -/
def Obligations.ReadAtUnreachableSlotFaults : Prop :=
  ∀ (s : State) (p : Port), s.initialised.get p = true → 40 ≤ (s.inst.get p).cycle.toNat →
    exec (.read p.index) s = .fault .unreachableSlot

/-- R107 for every number of READs: k READs in a row return k bytes, stay in the group, count the
sub-cycle modulo 8 and raise not-ready exactly where the low two bits are 0. -/
def Obligations.ReadsAloneStayInTheGroup : Prop :=
  ∀ (k : Nat) (s : State) (p : Port) (rest : List Event), s.initialised.get p = true →
    (s.inst.get p).cycle.toNat ≤ 39 → s.config.latencyModel = .unbounded →
    s.inbox = List.replicate k (.call (.read p.index)) ++ rest →
    ∃ bytes : List Byte, bytes.length = k ∧
      runSteps k s = .next { s with
        inbox := rest
        inst := s.inst.set p { s.inst.get p with
          cycle := BitVec.ofNat 6 (8 * ((s.inst.get p).cycle.toNat / 8) +
            ((s.inst.get p).cycle.toNat + k) % 8)
          latency := (s.inst.get p).latency + k }
        results := s.results ++ bytes.map (fun b => ⟨p, b⟩) } ∧
      ∀ j b, bytes[j]? = some b → s.config.tlBit = .bit4 →
        b.getLsbD 5 = decide (((s.inst.get p).cycle.toNat + j) % 4 = 0)

/-- R107: after eight READs the cycle is back and latency has grown by 8, and with TL at bit 4 exactly
two of the eight bytes carry the not-ready bit. -/
def Obligations.EightReadsComeBack : Prop :=
  ∀ (s : State) (p : Port) (rest : List Event), s.initialised.get p = true →
    (s.inst.get p).cycle.toNat ≤ 39 → s.config.latencyModel = .unbounded →
    s.config.tlBit = .bit4 →
    s.inbox = List.replicate 8 (.call (.read p.index)) ++ rest →
    ∃ (t : State) (bytes : List Byte), runSteps 8 s = .next t ∧
      t.results = s.results ++ bytes.map (fun b => ⟨p, b⟩) ∧ bytes.length = 8 ∧
      (t.inst.get p).cycle = (s.inst.get p).cycle ∧
      (t.inst.get p).latency = (s.inst.get p).latency + 8 ∧
      (bytes.filter (fun b => b.getLsbD 5)).length = 2

/-- R144: after a frame reset or a RESET, a WRITE that is no falling edge leaves cycle alone while at
most three READs have come before it, and advances after four or more. It holds of every legal latency
model (R26), and the shadow is stored either way. -/
def Obligations.DebounceWindowIsFourReads : Prop :=
  ∀ (k : Nat) (s : State) (p : Port) (d m : Byte) (rest : List Event),
    s.initialised.get p = true → (s.inst.get p).cycle = 0#6 → (s.inst.get p).latency = 0 →
    s.config.latencyModel.wf = true →
    ¬ ((s.inst.get p).shadow.getLsbD 6 = true ∧
      (mergedByte (s.inst.get p).shadow d m).getLsbD 6 = false) →
    s.inbox = List.replicate k (.call (.read p.index)) ++ .call (.write p.index d m) :: rest →
    ∃ t, runSteps (k + 1) s = .next t ∧
      (t.inst.get p).shadow = mergedByte (s.inst.get p).shadow d m ∧
      (k ≤ 3 → (t.inst.get p).cycle.toNat = k) ∧
      (4 ≤ k → (t.inst.get p).cycle = 8#6)

/-! ## All transactions -/

/-- R34, R96, R108: who writes what. READ keeps the shadow and is alone in raising latency; READ and
WRITE keep the snapshot and the extra cells. -/
def Obligations.WhoWritesWhat : Prop :=
  ∀ (i : Instr) (s t : State), exec i s = .next t →
    (∀ n, i = .read n → ∀ p, (t.inst.get p).shadow = (s.inst.get p).shadow) ∧
    (∀ p, (s.inst.get p).latency < (t.inst.get p).latency → i = .read p.index) ∧
    ((∀ n, i ≠ .reset n) → t.snap = s.snap ∧ t.aux = s.aux ∧ t.initialised = s.initialised)

/-- R48 and R132: a transaction to one port leaves the other instance as it was, and returns bytes only
for its own port. -/
def Obligations.TransactionLeavesTheOtherInstance : Prop :=
  ∀ (i : Instr) (s t : State) (p : Port), i.port = p.index → exec i s = .next t →
    t.inst.get p.other = s.inst.get p.other ∧
    t.initialised.get p.other = s.initialised.get p.other ∧
    ∃ more, t.results = s.results ++ more ∧ ∀ r ∈ more, r.port = p

/-- R48: transactions to different ports commute in their effect on instance state. That a READ or WRITE
refused at a port before its first RESET completes too is the model's reading (log entry 5). -/
def Obligations.TransactionsToDifferentPortsCommute : Prop :=
  ∀ (i j : Instr) (s : State) (p : Port), s.Inv → i.port = p.index → j.port = p.other.index →
    ∃ t u v w, exec i s = .next t ∧ exec j t = .next u ∧ exec j s = .next v ∧ exec i v = .next w ∧
      u.inst = w.inst ∧ u.initialised = w.initialised ∧ u.refused = w.refused

/-- R31 and R32: the sticky mark and the initialised flags are never cleared. The other clauses are the
model's own: that no step changes the configuration is log entry 1, that a step takes at most the oldest
event is log entry 4, and that results are a list to which a step adds at most one byte is log entry 10. -/
def Obligations.BookkeepingOnlyGrows : Prop :=
  ∀ s t : State, step s = .next t →
    (s.refused = true → t.refused = true) ∧
    (∀ p, s.initialised.get p = true → t.initialised.get p = true) ∧
    t.config = s.config ∧ t.inbox = s.inbox.tail ∧
    ∃ more, t.results = s.results ++ more ∧ more.length ≤ 1

/-- The invariant holds right after reset, in every configuration, and at power-on whatever the
registers and the environment hold. The reported reason in it is a field of the model's own (log entry 5),
and what counts as reset and power-on is log entry 8. -/
def Obligations.InvHoldsAtResetAndPowerOn : Prop :=
  State.reset.Inv ∧ (∀ config, (State.resetWith config).Inv) ∧
  ∀ config inst snap aux inbox, (State.powerOn config inst snap aux inbox).Inv

/-- R24 as an inductive invariant: every step keeps it, with the framing of results (R73) and the
agreement of the mark with the reported reason, a field of the model's own (log entry 5). -/
def Obligations.StepKeepsInv : Prop :=
  ∀ s t : State, s.Inv → step s = .next t → t.Inv

/-- From a state that meets the invariant a step always answers a next state. For a well-formed transaction
at an initialised instance that is R120; for a refused word or call it is the model's reading of R122 and
R32 (log entry 5), and for a step with nothing to come it is log entry 4. -/
def Obligations.StepNeverStops : Prop :=
  ∀ s : State, s.Inv → ∃ t, step s = .next t

/-- No run from power-on stops, whatever the host and the collaborator do, and an instance that has had its
RESET stays in groups 0 to 4 (R24), so that the fault of R124 is never reached. That a run goes on after a
refused transaction, its mark set, is the model's reading (log entry 5; R153 says no more of such a run),
and that a step with nothing to come holds the state is log entry 4. Power-on contents are arbitrary (log
entry 8). -/
def Obligations.RunsFromPowerOnNeverStop : Prop :=
  ∀ (config : Config) (inst : PerPort Instance) (snap : PerPort Snapshot) (aux : PerPort Byte)
    (inbox : List Event) (k : Nat),
    ∃ t, runSteps k (State.powerOn config inst snap aux inbox) = .next t ∧
      ∀ p, t.initialised.get p = true →
        (t.inst.get p).cycle.toNat / 8 ≤ 4 ∧ (t.inst.get p).cycle.toNat / 4 ≤ 9

/-- R120, R122, R154: a host that RESETs both ports first and issues only well-formed transactions is never
refused, and gets back exactly one byte for each of its READs, whatever the collaborator writes. -/
def Obligations.WellFormedHostIsNeverRefused : Prop :=
  ∀ (k : Nat) (s : State), s.Inv → s.Clean → (∀ p, s.initialised.get p = true) →
    (∀ e ∈ s.inbox, e.wellFormed = true) →
    ∃ t, runSteps k s = .next t ∧ t.Clean ∧
      t.results.length = s.results.length + ((s.inbox.take k).filter Event.isRead).length

/-- R26: a counter that saturates at 4 or more is indistinguishable from the unbounded one. The
saturated view of a state runs to the saturated view of where the state runs: same results, cycles,
shadows, refusals and faults. -/
def Obligations.SaturatingLatencyIsIndistinguishable : Prop :=
  ∀ (limit k : Nat) (s : State), 4 ≤ limit → s.config.latencyModel = .unbounded →
    runSteps k (s.saturateLatency limit) =
      mapNext (State.saturateLatency limit) (runSteps k s)

/-- R27: shadow bits other than bit 6 are unobservable. A run from the state with those bits cleared
agrees with the run from the state itself on everything but those bits. -/
def Obligations.OtherShadowBitsAreUnobservable : Prop :=
  ∀ (k : Nat) (s : State),
    mapNext State.keepThOnly (runSteps k s.keepThOnly) =
      mapNext State.keepThOnly (runSteps k s)
end

