-- ==== Sys2Proof/Tests/Slice0.lean ====
section
/-! SUPPORT. Tests of the model on values the spec gives (95_test_vectors.md), and a witness for the hypotheses of every statement. -/

namespace Sys2Proof.Tests
open Sys2Proof Sys2Proof.Machine

/-! ## Helpers -/

/-- The spec's values of R9, with an alias for both ports. -/
def sampleConfig (alias0 alias1 : AuxAlias) : Config :=
  { tlBit := .bit4, latencyModel := .unbounded, auxAlias := ⟨alias0, alias1⟩ }

/-- Both ports reset, then port 0 holding the given registers and the snapshot of 95_test_vectors.md section 2.2. -/
def sampleState (shadow : Byte) (cycle : CycleReg) (latency : Nat) : State :=
  { State.resetWith (sampleConfig .unsampled .unsampled) with
    inst := ⟨⟨shadow, cycle, latency⟩, .afterReset⟩
    snap := ⟨⟨0xA5#8, 0x3C#8, 0x81#8, 0x0A50#16⟩, ⟨128#8, 128#8, 128#8, 0#16⟩⟩ }

/-- No RESET yet on either port. -/
def samplePowerOn : State :=
  .powerOn (sampleConfig .otherX .ownZ) (.both ⟨0x12#8, 29#6, 17⟩) (.both ⟨0x00#8, 0xFF#8, 0x33#8, 0xFFFF#16⟩)
    (.both 7#8) []

/-- The next state of an outcome, if it is one. -/
def nextOf : Host.Outcome State Fault Refusal → Option State
  | .next s => some s
  | .fault _ => none
  | .refused _ => none

/-- What port 0 shows: its registers and the bytes returned so far. -/
def show0 (s : State) : Instance × List Byte := (s.inst.p0, s.results.map (·.byte))

/-! ## WellFormed refuses an ill-formed call -/

theorem test_wf_refuses_read_of_port_2 : (Instr.read 2).wf = false := by decide
theorem test_wf_refuses_write_of_port_2 : (Instr.write 2 0#8 0#8).wf = false := by decide
theorem test_wf_refuses_reset_of_port_7 : (Instr.reset 7).wf = false := by decide

/-! ## Decoding: each word's bits are written out from R61, mask data 0 p op -/

theorem test_decode_read_word : (decode 0b00000000_00000000_0_1_00).toOption = some (.read 1) := by decide
theorem test_decode_write_word : (decode 0b01000000_10110001_0_1_01).toOption =
    some (.write 1 0b10110001#8 0b01000000#8) := by decide
theorem test_decode_reset_word : (decode 0b00000000_00000000_0_1_10).toOption = some (.reset 1) := by decide
/-- W10 and R74: the words the spec prints. -/
theorem test_encode_spec_words : encode (.write 0 0xBF#8 0xFF#8) = 0xFFBF1 ∧
    encode (.th0 .p1) = 0x40005 ∧ encode (.th1 .p0) = 0x40401 ∧ encode (.reset 1) = 0x00006 := by decide
/-- F1 to F4 and F7, and a word of 21 bits (R62). -/
theorem test_decode_refuses_by_name :
    decode 0x00003 = .error .reservedOp ∧ decode 0x00008 = .error .reservedBit ∧
    decode 0x00012 = .error .reservedField ∧ decode 0x40000 = .error .reservedField ∧
    decode 0x0000B = .error .reservedOp ∧ decode 0x100001 = .error .reservedField :=
  ⟨rfl, rfl, rfl, rfl, rfl, rfl⟩
theorem test_table_word : decodeTableWord 24 0x40001 = some (.th0 .p0) := by decide

/-! ## The three transactions, on vectors of 95_test_vectors.md -/

/-- RD5: the second half of group 0, with TL and not-ready set. -/
theorem test_read_RD5 : (nextOf (exec (.read 0) (sampleState 0x55#8 4#6 7))).map show0 =
    some (⟨0x55#8, 5#6, 8⟩, [0x7A#8]) := by decide
/-- RD40: the last sub-cycle wraps to 32 within group 4. -/
theorem test_read_RD40 : (nextOf (exec (.read 0) (sampleState 0x55#8 39#6 7))).map show0 =
    some (⟨0x55#8, 32#6, 8⟩, [0x51#8]) := by decide
/-- W7: an advance from 35 clamps 40 to 32. -/
theorem test_write_W7 : (nextOf (exec (.th0 .p0) (sampleState 0x00#8 35#6 50))).map show0 =
    some (⟨0x00#8, 32#6, 50⟩, []) := by decide
/-- W10: all bits driven, bit 6 falling. -/
theorem test_write_W10 : (nextOf (exec (.write 0 0xBF#8 0xFF#8) (sampleState 0x40#8 0#6 10))).map show0 =
    some (⟨0xBF#8, 0#6, 0⟩, []) := by decide
/-- S1 and S2, from the registers of S1. -/
theorem test_reset_S1 : (nextOf (exec (.reset 0) samplePowerOn)).map
    (fun t => (t.inst.p0, t.inst.p1, (t.snap.p0.x, t.snap.p0.y, t.snap.p0.z), t.readAux .p0)) =
    some (⟨0x40#8, 0#6, 0⟩, ⟨0x12#8, 29#6, 17⟩, (128#8, 128#8, 128#8), 128#8) := by decide
/-- Under the alias X(q) the extra write lands on the other port's first axis and nowhere else (R29). -/
theorem test_reset_alias_otherX : (nextOf (exec (.reset 0) samplePowerOn)).map
    (fun t => (t.snap.p1, t.aux)) = some (⟨128#8, 0xFF#8, 0x33#8, 0xFFFF#16⟩, .both 7#8) := by decide

/-! ## Refusals and the fault -/

/-- F5: call `read(2)`. -/
theorem test_refuse_F5 : nextOf (exec (.read 2) samplePowerOn) =
    some { samplePowerOn with refused := true, lastRefusal := some .portOutOfRange } := by decide
/-- F6: READ 0 at power-on. -/
theorem test_refuse_F6 : nextOf (step (samplePowerOn.withFetchWord 24 0x00000)) =
    some { samplePowerOn with refused := true, lastRefusal := some .notInitialised } := by decide
theorem test_fault_at_slot_10 : exec (.read 0) (sampleState 0x40#8 40#6 0) = .fault .unreachableSlot := rfl
theorem test_step_reset_idle : step State.reset = .next State.reset := rfl

/-! ## Witnesses: a concrete state and operands that meet the hypotheses of each statement -/

theorem witness_DecodeOfEncodeIsTheCall :
    (Instr.write 1 0xFF#8 0xFF#8).wf = true ∧ (Instr.read 0).wf = true ∧ (Instr.reset 1).wf = true := by decide
theorem witness_EncodeOfDecodeIsTheWord : decode 0xFFFF5 = .ok (.write 1 0xFF#8 0xFF#8) := rfl
theorem witness_DecodeOfEveryWord :
    (2 ^ 20 ≤ 0x100000) ∧
    (0xFFFFF < 2 ^ 20 ∧ 0xFFFFF % 4 = 3) ∧
    (0x00008 < 2 ^ 20 ∧ 0x00008 % 4 ≠ 3 ∧ (0x00008).testBit 3 = true) ∧
    (0x00010 < 2 ^ 20 ∧ 0x00010 % 4 = 0 ∧ (0x00010).testBit 3 = false ∧ 0x00010 / 16 ≠ 0) ∧
    (0x00004 < 2 ^ 20 ∧ 0x00004 % 4 = 0 ∧ (0x00004).testBit 3 = false ∧ 0x00004 / 16 = 0) ∧
    (0xFFFF5 < 2 ^ 20 ∧ 0xFFFF5 % 4 = 1 ∧ (0xFFFF5).testBit 3 = false) ∧
    (0x00006 < 2 ^ 20 ∧ 0x00006 % 4 = 2 ∧ (0x00006).testBit 3 = false ∧ 0x00006 / 16 = 0) := by decide
theorem witness_StepRunsTheDecodedWord :
    ({ State.reset with inbox := [.word 0x40001] } : State).inbox = .word 0x40001 :: [] ∧
    decode 0x40001 = .ok (.write 0 0x00#8 0x40#8) := ⟨rfl, rfl⟩
theorem witness_StepRunsThePlacedTableWord : decodeTableWord 24 0x00006 = some (.reset 1) := by decide
theorem witness_StepRunsTheCallAndHoldsWhenIdle :
    ({ State.reset with inbox := [.call (.reset 0)] } : State).inbox = .call (.reset 0) :: [] ∧
    State.reset.inbox = [] := ⟨rfl, rfl⟩
theorem witness_CollaboratorWritesOneField :
    ({ State.reset with inbox := [.collab (.x .p0 1#8)] } : State).inbox = .collab (.x .p0 1#8) :: [] ∧
    ({ State.reset with inbox := [.collab (.y .p1 1#8)] } : State).inbox = .collab (.y .p1 1#8) :: [] ∧
    ({ State.reset with inbox := [.collab (.z .p0 1#8)] } : State).inbox = .collab (.z .p0 1#8) :: [] ∧
    ({ State.reset with inbox := [.collab (.b .p1 1#16)] } : State).inbox = .collab (.b .p1 1#16) :: [] :=
  ⟨rfl, rfl, rfl, rfl⟩
theorem witness_CollaboratorWriteOfTheExtraCellLandsOnItsAlias :
    ({ samplePowerOn with inbox := [.collab (.aux .p0 9#8)] } : State).inbox = .collab (.aux .p0 9#8) :: [] ∧
    samplePowerOn.config.auxAlias.get .p0 = .otherX := ⟨rfl, rfl⟩
/-- Each of the four aliases, for the clauses that name one. -/
theorem witness_every_alias : ∀ a ∈ [AuxAlias.unsampled, .ownZ, .otherX, .otherY],
    (State.resetWith (sampleConfig a a)).config.auxAlias.get .p0 = a := by decide
/-- One witness for each clause: the five reasons, at the edges of their ranges. -/
theorem witness_RefusedTransactionOnlySetsTheMark :
    (∀ w ∈ [0x00003, 0xFFFFF], w < 2 ^ 20 ∧ w % 4 = 3) ∧
    (∀ w ∈ [0x00008, 0xFFFFE], w < 2 ^ 20 ∧ w % 4 ≠ 3 ∧ w.testBit 3 = true) ∧
    (2 ^ 20 ≤ 0x100000) ∧
    (∀ w ∈ [0x00010, 0xFFFF6], w < 2 ^ 20 ∧ (w % 4 = 0 ∨ w % 4 = 2) ∧ w.testBit 3 = false ∧ 16 ≤ w) ∧
    ({ samplePowerOn with inbox := [.word 0x00003] } : State).inbox = .word 0x00003 :: [] ∧
    (({ samplePowerOn with inbox := [.call (.read 2)] } : State).inbox = .call (.read 2) :: [] ∧
      2 ≤ (Instr.read 2).port) ∧
    (({ samplePowerOn with inbox := [.call (.read 1)] } : State).inbox = .call (.read Port.p1.index) :: [] ∧
      ({ samplePowerOn with inbox := [.call (.read 1)] } : State).initialised.get .p1 = false) ∧
    (({ samplePowerOn with inbox := [.call (.th0 .p0)] } : State).inbox =
        .call (.write Port.p0.index 0x00#8 0x40#8) :: [] ∧
      ({ samplePowerOn with inbox := [.call (.th0 .p0)] } : State).initialised.get .p0 = false) := by decide
theorem witness_OnlyResetRunsBeforeTheFirstReset : samplePowerOn.initialised.get .p0 = false := by decide
theorem witness_ResetLeavesTheRest :
    samplePowerOn.config.auxAlias.get .p0 ≠ .otherY ∧ samplePowerOn.config.auxAlias.get .p1 ≠ .otherX ∧
    samplePowerOn.config.auxAlias.get .p1 ≠ .unsampled := by decide
/-- W17: a falling edge at latency 3. -/
theorem witness_WriteOnFallingEdgeResetsTheFrame :
    (sampleState 0x40#8 7#6 3).initialised.get .p0 = true ∧
    (sampleState 0x40#8 7#6 3).inst.p0.shadow.getLsbD 6 = true ∧
    ((0x40#8 &&& ~~~0x40#8) ||| (0x00#8 &&& 0x40#8)).getLsbD 6 = false := by decide
/-- W4 and W5: a rising edge at latency 3 and at latency 4. -/
theorem witness_WriteWithoutFallingEdgeAdvancesOrIsDebounced :
    (sampleState 0x00#8 3#6 3).initialised.get .p0 = true ∧
    ¬ ((0x00#8).getLsbD 6 = true ∧ ((0x00#8 &&& ~~~0x40#8) ||| (0x40#8 &&& 0x40#8)).getLsbD 6 = false) ∧
    (sampleState 0x00#8 3#6 3).inst.p0.latency ≤ 3 ∧ 3 < (sampleState 0x00#8 4#6 4).inst.p0.latency := by decide
theorem witness_WriteStoresTheMaskedBits : (sampleState 0x7F#8 0#6 0).initialised.get .p0 = true := by decide
theorem witness_WriteLeavesCycleOrAGroupBase :
    ∃ t, exec (.write 0 0x40#8 0x40#8) (sampleState 0x40#8 39#6 100) = .next t := ⟨_, rfl⟩
theorem witness_AdvanceLandsOnTheNextGroup : ∀ c ∈ [0#6, 31#6, 32#6, 39#6],
    (sampleState 0x00#8 c 4).initialised.get .p0 = true ∧
    (sampleState 0x00#8 c 4).inst.p0.cycle.toNat ≤ 39 ∧ 3 < (sampleState 0x00#8 c 4).inst.p0.latency ∧
    ¬ ((0x00#8).getLsbD 6 = true ∧ (0x40#8).getLsbD 6 = true ∧ (0x40#8).getLsbD 6 = false) := by decide
theorem witness_OnlyBitSixDecidesAWrite :
    (sampleState 0x40#8 5#6 9).initialised.get .p0 = true ∧ (sampleState 0xFF#8 5#6 9).initialised.get .p0 = true ∧
    (sampleState 0x40#8 5#6 9).inst.p0.cycle = (sampleState 0xFF#8 5#6 9).inst.p0.cycle ∧
    (sampleState 0x40#8 5#6 9).inst.p0.latency = (sampleState 0xFF#8 5#6 9).inst.p0.latency ∧
    (0x40#8).getLsbD 6 = (0xFF#8).getLsbD 6 ∧
    (mergedByte 0x40#8 0x00#8 0x40#8).getLsbD 6 = (mergedByte 0xFF#8 0x3F#8 0xFF#8).getLsbD 6 := by decide
theorem witness_TogglingHostStaysInGroupsZeroAndOne :
    (sampleState 0x40#8 15#6 9).initialised.get .p0 = true ∧ (sampleState 0x40#8 15#6 9).inst.p0.WithinGroups01 ∧
    (sampleState 0x00#8 7#6 9).inst.p0.WithinGroups01 ∧
    (mergedByte 0x40#8 0x00#8 0x40#8).getLsbD 6 ≠ (0x40#8).getLsbD 6 := by decide
theorem witness_RepeatedTh0WalksTheGroups :
    (sampleState 0x00#8 4#6 4).initialised.get .p0 = true ∧
    (sampleState 0x00#8 4#6 4).inst.p0.shadow.getLsbD 6 = false ∧ 3 < (sampleState 0x00#8 4#6 4).inst.p0.latency ∧
    (sampleState 0x00#8 4#6 4).inst.p0.cycle.toNat ≤ 39 ∧
    ({ sampleState 0x00#8 4#6 4 with inbox := [.call (.th0 .p0), .call (.th0 .p0)] } : State).inbox =
      List.replicate (1 + 1) (.call (.th0 .p0)) ++ [] := by decide
/-- The hypotheses of every statement about one READ, at both ends of each of the ten runs of cycle values;
in these states TL_BIT is 4 and the latency model is unbounded. -/
theorem witness_ReadAtEveryPayloadRun :
    ∀ c ∈ [0#6, 3#6, 4#6, 7#6, 8#6, 11#6, 12#6, 15#6, 16#6, 19#6, 20#6, 23#6, 24#6, 27#6, 28#6, 31#6, 32#6, 35#6,
        36#6, 39#6],
      (sampleState 0x55#8 c 7).initialised.get .p0 = true ∧ (sampleState 0x55#8 c 7).inst.p0.cycle.toNat ≤ 39 ∧
      (sampleState 0x55#8 c 7).config.tlBit = .bit4 ∧
      (sampleState 0x55#8 c 7).config.latencyModel = .unbounded := by decide
theorem witness_ReadStatusBits_bit5 :
    ({ sampleState 0x55#8 4#6 7 with
        config := ⟨.bit5, .unbounded, .both .unsampled⟩ } : State).config.tlBit = .bit5 := by decide
/-- B7: raw bits 0..3 and 12..15 all set, and none set, agree on bits 4..11. -/
theorem witness_ReadInvertsTheButtons :
    ∀ k : Fin 12, 4 ≤ k.val → (0xF00F#16).getLsbD k.val = (0x0000#16).getLsbD k.val := by decide
theorem witness_ReadResultDependsOnCycleAndSnapshot :
    (sampleState 0x00#8 20#6 0).initialised.get .p0 = true ∧ (sampleState 0xFF#8 20#6 99).initialised.get .p0 = true ∧
    (sampleState 0x00#8 20#6 0).inst.p0.cycle = (sampleState 0xFF#8 20#6 99).inst.p0.cycle ∧
    (sampleState 0x00#8 20#6 0).snap.p0 = (sampleState 0xFF#8 20#6 99).snap.p0 ∧
    (sampleState 0x00#8 20#6 0).config.tlBit = (sampleState 0xFF#8 20#6 99).config.tlBit ∧
    (sampleState 0x00#8 20#6 0).inst.p0.cycle.toNat ≤ 39 := by decide
/-- At slot 5 every field but Z may be replaced. -/
theorem witness_ReadUsesTheSelectedFieldOnly :
    (sampleState 0x00#8 20#6 0).inst.p0.cycle.toNat / 4 = 5 ∧
    (⟨0#8, 0#8, 0x81#8, 0#16⟩ : Snapshot).z = (sampleState 0x00#8 20#6 0).snap.p0.z := by decide
/-- A write of each of the four fields before a READ, at both ends of each of that field's two slots. -/
theorem witness_ReadSeesTheLastCollaboratorWrite :
    ∀ wc ∈ [(CollabWrite.b .p0 0x0F00#16, [0#6, 3#6, 4#6, 7#6]), (.x .p0 3#8, [8#6, 11#6, 24#6, 27#6]),
        (.y .p0 3#8, [12#6, 15#6, 28#6, 31#6]), (.z .p0 3#8, [20#6, 23#6, 36#6, 39#6])],
      ∀ c ∈ wc.2,
        let s : State := { sampleState 0x00#8 c 0 with inbox := [.collab wc.1, .call (.read 0)] }
        s.initialised.get .p0 = true ∧ (s.inst.get .p0).cycle = c ∧ (s.inst.get .p0).cycle.toNat ≤ 39 ∧
        s.inbox = .collab wc.1 :: .call (.read Port.p0.index) :: [] := by decide
theorem witness_ReadAtUnreachableSlotFaults : ∀ c ∈ [40#6, 63#6],
    (sampleState 0x40#8 c 0).initialised.get .p0 = true ∧
    40 ≤ (sampleState 0x40#8 c 0).inst.p0.cycle.toNat := by decide
theorem witness_ReadsAloneStayInTheGroup :
    ({ sampleState 0x40#8 38#6 0 with inbox := List.replicate 8 (.call (.read 0)) } : State).inbox =
      List.replicate 8 (.call (.read Port.p0.index)) ++ [] ∧
    (sampleState 0x40#8 38#6 0).initialised.get .p0 = true ∧ (sampleState 0x40#8 38#6 0).inst.p0.cycle.toNat ≤ 39 ∧
    (sampleState 0x40#8 38#6 0).config.latencyModel = .unbounded ∧
    (sampleState 0x40#8 38#6 0).config.tlBit = .bit4 := by decide
/-- A rising edge after three READs, and after four, from the state of a frame reset. -/
theorem witness_DebounceWindowIsFourReads : ∀ k ∈ [0, 3, 4],
    (sampleState 0x00#8 0#6 0).initialised.get .p0 = true ∧ (sampleState 0x00#8 0#6 0).inst.p0.cycle = 0#6 ∧
    (sampleState 0x00#8 0#6 0).inst.p0.latency = 0 ∧
    (sampleState 0x00#8 0#6 0).config.latencyModel.wf = true ∧
    ¬ ((0x00#8).getLsbD 6 = true ∧ (mergedByte 0x00#8 0x40#8 0x40#8).getLsbD 6 = false) ∧
    ({ sampleState 0x00#8 0#6 0 with
        inbox := List.replicate k (.call (.read 0)) ++ [.call (.th1 .p0)] } : State).inbox =
      List.replicate k (.call (.read Port.p0.index)) ++ .call (.write Port.p0.index 0x40#8 0x40#8) :: [] := by decide
theorem witness_WhoWritesWhat : ∃ t, exec (.read 0) (sampleState 0x40#8 8#6 0) = .next t ∧
    (sampleState 0x40#8 8#6 0).inst.p0.latency < t.inst.p0.latency ∧
    ∀ n, Instr.write 0 0#8 0#8 ≠ .reset n := ⟨_, rfl, by decide, fun _ h => by cases h⟩
theorem witness_TransactionLeavesTheOtherInstance :
    (Instr.read 0).port = Port.p0.index ∧ ∃ t, exec (.read 0) (sampleState 0x40#8 8#6 0) = .next t :=
  ⟨rfl, _, rfl⟩
theorem witness_TransactionsToDifferentPortsCommute : (sampleState 0x40#8 8#6 0).Inv ∧
    (Instr.read 0).port = Port.p0.index ∧ (Instr.reset 1).port = Port.p0.other.index := by decide
theorem witness_BookkeepingOnlyGrows :
    ∃ t, step { samplePowerOn with refused := true, initialised := ⟨true, false⟩ } = .next t := ⟨_, rfl⟩
theorem witness_StepKeepsInv :
    ({ sampleState 0x40#8 39#6 0 with inbox := [.word 0x00000] } : State).Inv ∧
    ∃ t, step { sampleState 0x40#8 39#6 0 with inbox := [.word 0x00000] } = .next t := ⟨by decide, _, rfl⟩
theorem witness_RunsFromPowerOnNeverStop : ∃ t, runSteps 2 { samplePowerOn with
    inbox := [.word 0x00002, .word 0x00000] } = .next t ∧ t.initialised.get .p0 = true := ⟨_, rfl, by decide⟩
theorem witness_WellFormedHostIsNeverRefused :
    let s : State := { sampleState 0x40#8 0#6 0 with
      inbox := [.word 0x40001, .call (.read 0), .collab (.b .p1 5#16)] }
    s.Inv ∧ s.Clean ∧ s.initialised.get .p0 = true ∧ s.initialised.get .p1 = true ∧
    ∀ e ∈ s.inbox, e.wellFormed = true := by decide
theorem witness_SaturatingLatencyIsIndistinguishable :
    4 ≤ 4 ∧ (sampleState 0x40#8 0#6 9).config.latencyModel = .unbounded := by decide

end Sys2Proof.Tests
end

/-! SUPPORT. The bits of WRITE's merged byte and of READ's result byte, each said once, and the proofs that
settle the statements of 30_encoding.md by them. -/

namespace Sys2Proof.Machine

/-! ## The merged byte of a WRITE -/

/-- The mask chooses each bit of the merged byte: the data's, or the shadow's own (R71). -/
theorem mergedByte_getLsbD (shadow data mask : Byte) {k : Nat} (hk : k < 8) :
    (mergedByte shadow data mask).getLsbD k =
      if mask.getLsbD k then data.getLsbD k else shadow.getLsbD k := by
  simp only [mergedByte, BitVec.getLsbD_or, BitVec.getLsbD_and, BitVec.getLsbD_not, hk]
  cases mask.getLsbD k <;> simp

theorem exec_write_ready {p : Port} {s : State} (hi : s.initialised.get p = true) (data mask : Byte) :
    exec (.write p.index data mask) s =
      .next (s.setInst p (instanceAfterWrite (s.inst.get p) data mask)) :=
  execWrite_ready hi data mask

/-! ## The result byte of a READ -/

theorem statusBit_getLsbD (on : Bool) {position k : Nat} (hk : k < 8) :
    (statusBit on position).getLsbD k = (decide (k = position) && on) := by
  rcases Nat.lt_trichotomy k position with h | rfl | h
  · simp [statusBit, h, h.ne]
  · simp [statusBit, hk]
  · have hne : k - position ≠ 0 := by omega
    simp [statusBit, h.ne', hne]

/-- A result bit is set by the base, by not-ready at bit 5, by TL at its own place, or by the payload (R95). -/
theorem resultByte_getLsbD (tl : TlBit) (c : CycleReg) (nib : Nibble) {k : Nat} (hk : k < 8) :
    (resultByte tl c nib).getLsbD k =
      (idleShadow.getLsbD k || (decide (k = 5) && notReady c) ||
        (decide (k = tlPosition tl) && cycleHalf c) || nib.getLsbD k) := by
  simp [resultByte, statusBit_getLsbD _ hk, hk, -BitVec.getLsbD_eq_getElem]

/-- No status bit reaches the low nibble, which is the payload (R66). -/
theorem resultByte_low_nibble (tl : TlBit) (c : CycleReg) (nib : Nibble) :
    (resultByte tl c nib).extractLsb' 0 4 = nib := by
  apply BitVec.eq_of_getLsbD_eq
  intro k hk
  have hbase : idleShadow.getLsbD k = false := by
    revert k; decide
  have htl : k ≠ tlPosition tl := by
    cases tl <;> simp only [tlPosition] <;> omega
  have hnr : k ≠ 5 := by omega
  simp [hk, resultByte_getLsbD tl c nib (hk.trans (by decide)), hbase, htl, hnr]

theorem resultByte_bit7 (tl : TlBit) (c : CycleReg) (nib : Nibble) :
    (resultByte tl c nib).getLsbD 7 = false := by
  rw [resultByte_getLsbD _ _ _ (by decide)]
  cases tl <;> simp [tlPosition, idleShadow]

theorem resultByte_bit6 (tl : TlBit) (c : CycleReg) (nib : Nibble) :
    (resultByte tl c nib).getLsbD 6 = true := by
  rw [resultByte_getLsbD _ _ _ (by decide)]
  simp [idleShadow]

/-- With TL at bit 4 the two status bits stand apart (R67). -/
theorem resultByte_bit4_status (c : CycleReg) (nib : Nibble) :
    (resultByte .bit4 c nib).getLsbD 4 = cycleHalf c ∧
    (resultByte .bit4 c nib).getLsbD 5 = notReady c := by
  rw [resultByte_getLsbD _ _ _ (by decide), resultByte_getLsbD _ _ _ (by decide)]
  simp [tlPosition, idleShadow]

/-- With TL at bit 5 it is ORed into not-ready, and bit 4 is clear (R67). -/
theorem resultByte_bit5_status (c : CycleReg) (nib : Nibble) :
    (resultByte .bit5 c nib).getLsbD 4 = false ∧
    (resultByte .bit5 c nib).getLsbD 5 = (notReady c || cycleHalf c) := by
  rw [resultByte_getLsbD _ _ _ (by decide), resultByte_getLsbD _ _ _ (by decide)]
  simp [tlPosition, idleShadow]

/-- A READ at a reachable cycle completes, and its byte carries the multiplexer's payload for that cycle
(R95, R68). -/
theorem exec_read_ready {p : Port} {s : State} (hi : s.initialised.get p = true)
    (hc : (s.inst.get p).cycle.toNat ≤ 39) :
    ∃ nib, payload? ((s.inst.get p).cycle.toNat / 4) (s.snap.get p) = some nib ∧
      exec (.read p.index) s = .next
        ((s.setInst p (instanceAfterRead s.config.latencyModel (s.inst.get p))).returnByte p
          (resultByte s.config.tlBit (s.inst.get p).cycle nib)) := by
  have hsome := (payload_isSome_iff ((s.inst.get p).cycle.toNat / 4) (s.snap.get p)).2 (by omega)
  obtain ⟨nib, hn⟩ := Option.isSome_iff_exists.1 hsome
  exact ⟨nib, hn, execRead_ready hi (by rw [cycleSlot_eq, hn])⟩

/-! ## The statements of 30_encoding.md -/

/-- Settles O21: every WRITE that runs stores the merged byte, whose bits the mask chooses. -/
theorem writeStoresTheMaskedBits : Obligations.WriteStoresTheMaskedBits := by
  intro s p d m hi
  refine ⟨_, exec_write_ready hi d m, fun k hk => ?_⟩
  rw [State.setInst_inst, PerPort.get_set, instanceAfterWrite_shadow, mergedByte_getLsbD _ _ _ hk]

/-- Settles O27: the status bits of the result byte, for each placement of TL. -/
theorem readStatusBits : Obligations.ReadStatusBits := by
  intro s p hi hc
  obtain ⟨nib, -, hx⟩ := exec_read_ready hi hc
  refine ⟨_, _, hx, rfl, resultByte_bit7 .., resultByte_bit6 .., fun htl => ?_, fun htl => ?_⟩
  · obtain ⟨h4, h5⟩ := resultByte_bit4_status (s.inst.get p).cycle nib
    rw [htl, h4, h5, cycleHalf_eq, notReady_eq]
    exact ⟨rfl, rfl⟩
  · obtain ⟨h4, h5⟩ := resultByte_bit5_status (s.inst.get p).cycle nib
    rw [htl, h4, h5, cycleHalf_eq, notReady_eq, Bool.decide_or]
    exact ⟨rfl, rfl⟩

/-- Settles O28: the low nibble is the payload, and each run of cycle values is one slot of the multiplexer. -/
theorem readPayloadByCycle : Obligations.ReadPayloadByCycle := by
  intro s p hi hc c v
  obtain ⟨nib, hn, hx⟩ := exec_read_ready hi hc
  have at_slot {slot : Nat} {n : Nibble} (hs : payload? slot v = some n) (hslot : c / 4 = slot) :
      nib = n := by
    subst hslot
    exact Option.some.inj (hn.symm.trans hs)
  refine ⟨_, _, hx, rfl, ?_⟩
  rw [resultByte_low_nibble]
  exact ⟨fun h => at_slot (slot := 0) rfl (by omega),
    fun h => at_slot (slot := 1) rfl (by omega),
    fun h => at_slot (slot := 2) rfl (by omega),
    fun h => at_slot (slot := 3) rfl (by omega),
    fun h => at_slot (slot := 4) rfl (by omega),
    fun h => at_slot (slot := 5) rfl (by omega),
    fun h => at_slot (slot := 6) rfl (by omega),
    fun h => at_slot (slot := 7) rfl (by omega),
    fun h => at_slot (slot := 8) rfl (by omega),
    fun h => at_slot (slot := 9) rfl (by omega)⟩

end Sys2Proof.Machine

/-! SUPPORT. Where RESET's writes to the extra cell land for each `AUX_ALIAS`, the registers a WRITE leaves in each
branch, and the proofs that settle the statements of 40_operations.md by them. -/

namespace Sys2Proof.Machine

/-! ## The extra cell and RESET -/

@[simp] theorem State.setInst_readAux (s : State) (p q : Port) (v : Instance) :
    (s.setInst p v).readAux q = s.readAux q := rfl
@[simp] theorem State.markInitialised_readAux (s : State) (p q : Port) :
    (s.markInitialised p).readAux q = s.readAux q := rfl

/-- In the port's own snapshot a write of the extra cell can reach Z alone (R29). -/
theorem writeAux_snap_own (s : State) (p : Port) (v : Byte) :
    (s.writeAux p v).snap.get p =
      { s.snap.get p with z := if s.config.auxAlias.get p = .ownZ then v else (s.snap.get p).z } := by
  simp [State.writeAux, afterAuxWrite_eq]

/-- In the other port's snapshot a write of the extra cell can reach X and Y alone (R29). -/
theorem writeAux_snap_other (s : State) (p : Port) (v : Byte) :
    (s.writeAux p v).snap.get p.other =
      { s.snap.get p.other with
        x := if s.config.auxAlias.get p = .otherX then v else (s.snap.get p.other).x
        y := if s.config.auxAlias.get p = .otherY then v else (s.snap.get p.other).y } := by
  simp [State.writeAux, afterAuxWrite_eq]

/-- The cell's own storage takes a write only where no READ samples the cell (R29). -/
theorem writeAux_aux_own (s : State) (p : Port) (v : Byte) :
    (s.writeAux p v).aux.get p =
      if s.config.auxAlias.get p = .unsampled then v else s.aux.get p := by
  simp [State.writeAux, afterAuxWrite_eq]

/-- The port's own axes are centred whatever `AUX_ALIAS` is: where the cell is Z, it is centred twice (R82). -/
theorem centreAxes_snap_own (s : State) (p : Port) :
    (s.centreAxes p).snap.get p = { s.snap.get p with x := centre, y := centre, z := centre } := by
  rw [State.centreAxes, writeAux_snap_own]
  simp

theorem centreAxes_snap_other (s : State) (p : Port) :
    (s.centreAxes p).snap.get p.other =
      { s.snap.get p.other with
        x := if s.config.auxAlias.get p = .otherX then centre else (s.snap.get p.other).x
        y := if s.config.auxAlias.get p = .otherY then centre else (s.snap.get p.other).y } := by
  rw [State.centreAxes, writeAux_snap_other]
  simp

theorem centreAxes_aux_own (s : State) (p : Port) :
    (s.centreAxes p).aux.get p =
      if s.config.auxAlias.get p = .unsampled then centre else s.aux.get p :=
  writeAux_aux_own _ p centre

theorem readAux_centreAxes (s : State) (p : Port) : (s.centreAxes p).readAux p = centre :=
  readAux_writeAux _ p centre

theorem exec_reset_index (p : Port) (s : State) :
    exec (.reset p.index) s = .next (((s.centreAxes p).setInst p .afterReset).markInitialised p) :=
  execReset_index p s

/-! ## The branches of a WRITE -/

theorem fallingEdge_iff (shadow merged : Byte) :
    fallingEdge shadow merged = true ↔ shadow.getLsbD 6 = true ∧ merged.getLsbD 6 = false := by
  simp only [fallingEdge, thBit, Bool.and_eq_true, Bool.not_eq_true']

section
variable {v : Instance} {data mask : Byte}

/-- The frame reset comes first, so neither cycle nor latency matters to it (R88, R91). -/
theorem instanceAfterWrite_fall (h : fallingEdge v.shadow (mergedByte v.shadow data mask) = true) :
    instanceAfterWrite v data mask =
      { shadow := mergedByte v.shadow data mask, cycle := 0#6, latency := 0 } :=
  if_pos h

/-- An advance needs more READs than the threshold (R89). -/
theorem instanceAfterWrite_advance (h : ¬ fallingEdge v.shadow (mergedByte v.shadow data mask) = true)
    (hl : 3 < v.latency) :
    instanceAfterWrite v data mask =
      { shadow := mergedByte v.shadow data mask, cycle := advancedCycle v.cycle
        latency := v.latency } :=
  (if_neg h).trans (if_pos hl)

/-- A debounced WRITE only stores its byte (R89, R90). -/
theorem instanceAfterWrite_debounced (h : ¬ fallingEdge v.shadow (mergedByte v.shadow data mask) = true)
    (hl : v.latency ≤ 3) :
    instanceAfterWrite v data mask =
      { shadow := mergedByte v.shadow data mask, cycle := v.cycle, latency := v.latency } :=
  (if_neg h).trans (if_neg (Nat.not_lt.2 hl))

end

/-! ## The statements of 40_operations.md -/

/-- Settles O12: RESET leaves the registers of `Instance.afterReset`, from every state. -/
theorem resetSetsTheRegisters : Obligations.ResetSetsTheRegisters := by
  intro s p
  refine ⟨_, exec_reset_index p s, ?_⟩
  rw [State.markInitialised_inst, State.setInst_inst, PerPort.get_set]
  exact ⟨rfl, rfl, rfl⟩

/-- Settles O13: the axes and the extra cell are centred, and `AUX_ALIAS` says what else is written. -/
theorem resetCentresTheAxesAndTheExtraCell : Obligations.ResetCentresTheAxesAndTheExtraCell := by
  intro s p
  refine ⟨_, exec_reset_index p s, ?_, ?_, ?_⟩
  · simp [centreAxes_snap_own, centre]
  · simp [readAux_centreAxes, centre]
  · simp only [State.markInitialised_snap, State.setInst_snap, State.markInitialised_aux,
      State.setInst_aux, centreAxes_snap_other, centreAxes_aux_own]
    cases s.config.auxAlias.get p with
    | unsampled => exact ⟨rfl, rfl⟩
    | ownZ => rfl
    | otherX => rfl
    | otherY => rfl

/-- Settles O19: a falling edge of TH restarts the frame. -/
theorem writeOnFallingEdgeResetsTheFrame : Obligations.WriteOnFallingEdgeResetsTheFrame := by
  intro s p d m hi v merged hset hclear
  rw [exec_write_ready hi, instanceAfterWrite_fall ((fallingEdge_iff _ _).2 ⟨hset, hclear⟩)]
  rfl

/-- Settles O20: without a falling edge the latency alone chooses between the advance and the debounce. -/
theorem writeWithoutFallingEdgeAdvancesOrIsDebounced :
    Obligations.WriteWithoutFallingEdgeAdvancesOrIsDebounced := by
  intro s p d m hi v merged hedge
  have hfall : ¬ fallingEdge v.shadow (mergedByte v.shadow d m) = true :=
    mt (fallingEdge_iff _ _).1 hedge
  rw [exec_write_ready hi]
  constructor
  · intro hl
    rw [instanceAfterWrite_advance hfall hl]
    rfl
  · intro hl
    rw [instanceAfterWrite_debounced hfall hl]
    rfl

/-- Settles O31: a reachable READ returns one byte and moves its own port's registers only. -/
theorem readAdvancesThePosition : Obligations.ReadAdvancesThePosition := by
  intro s p hi hc hm
  obtain ⟨nib, -, hx⟩ := exec_read_ready hi hc
  rw [hm] at hx
  exact ⟨_, hx⟩

end Sys2Proof.Machine

/-! SUPPORT. What a row of READs leaves of the registers, the end state of such a row, and the proofs that settle
the statements of 70_reset_and_hazards.md by them. -/

namespace Sys2Proof.Machine

/-! ## The first READ of a frame -/

/-- At cycle 0 not-ready is set and TL is clear, so where TL sits does not matter (R66, R67). -/
theorem resultByte_cycle_zero (tl : TlBit) (nib : Nibble) :
    resultByte tl 0#6 nib = 0x60#8 ||| nib.setWidth 8 := by
  have hstatus : idleShadow ||| statusBit (notReady 0#6) 5 |||
      statusBit (cycleHalf 0#6) (tlPosition tl) = 0x60#8 := by
    cases tl <;> rfl
  rw [resultByte, hstatus]

/-- A READ at the start of a frame completes, and its payload is the upper buttons (R68, R95). -/
theorem exec_read_frame_start {p : Port} {s : State} (hi : s.initialised.get p = true)
    (hc : (s.inst.get p).cycle = 0#6) :
    exec (.read p.index) s = .next
      ((s.setInst p (instanceAfterRead s.config.latencyModel (s.inst.get p))).returnByte p
        (0x60#8 ||| ((~~~(s.snap.get p).b).extractLsb' 8 4).setWidth 8)) := by
  rw [← resultByte_cycle_zero s.config.tlBit, ← hc]
  exact execRead_ready hi (by rw [hc]; rfl)

/-! ## A row of READs -/

theorem iterate_instanceAfterRead_shadow (m : LatencyModel) (k : Nat) (v : Instance) :
    ((instanceAfterRead m)^[k] v).shadow = v.shadow := by
  induction k generalizing v with
  | zero => rfl
  | succ k ih => rw [Function.iterate_succ_apply, ih, instanceAfterRead]

/-- READs alone stay in their group and count the sub-cycle modulo 8 (R107). -/
theorem iterate_instanceAfterRead_cycle (m : LatencyModel) (k : Nat) (v : Instance) :
    ((instanceAfterRead m)^[k] v).cycle.toNat =
      8 * (v.cycle.toNat / 8) + (v.cycle.toNat + k) % 8 := by
  induction k generalizing v with
  | zero => simp only [Function.iterate_zero, id_eq]; omega
  | succ k ih =>
    have hstep : (instanceAfterRead m v).cycle.toNat =
        8 * (v.cycle.toNat / 8) + (v.cycle.toNat + 1) % 8 := nextSubCycle_toNat v.cycle
    rw [Function.iterate_succ_apply, ih]
    omega

/-- Up to 4, which is all the debounce looks at, every legal latency model counts alike (R26). -/
theorem min_countRead_four {m : LatencyModel} (hm : m.wf = true) (n : Nat) :
    min (countRead m n) 4 = min (n + 1) 4 := by
  cases m with
  | unbounded => rfl
  | saturating limit =>
    have hlimit : 4 ≤ limit := of_decide_eq_true hm
    simp only [countRead]
    omega

theorem min_iterate_instanceAfterRead_latency {m : LatencyModel} (hm : m.wf = true) (k : Nat)
    (v : Instance) : min ((instanceAfterRead m)^[k] v).latency 4 = min (v.latency + k) 4 := by
  induction k generalizing v with
  | zero => rfl
  | succ k ih =>
    have hstep : min (instanceAfterRead m v).latency 4 = min (v.latency + 1) 4 :=
      min_countRead_four hm v.latency
    rw [Function.iterate_succ_apply, ih]
    omega

/-- A run that got through goes on from where it got to. -/
theorem runSteps_add {k : Nat} {s t : State} (h : runSteps k s = .next t) (n : Nat) :
    runSteps (k + n) s = runSteps n t := by
  induction k generalizing s with
  | zero =>
    cases h
    rw [Nat.zero_add]
  | succ k ih =>
    rw [Nat.succ_add]
    cases hs : step s with
    | next s' =>
      rw [runSteps_next hs] at h ⊢
      exact ih h
    | fault r => simp [runSteps_fault hs] at h
    | refused r => simp [runSteps_refused hs] at h

/-- A run followed by one call that completes. -/
theorem runSteps_call {k : Nat} {s t u : State} {i : Instr} {rest : List Event}
    (hrun : runSteps k s = .next t) (hin : t.inbox = .call i :: rest)
    (hx : exec i { t with inbox := rest } = .next u) : runSteps (k + 1) s = .next u := by
  rw [runSteps_add hrun, runSteps_next ((step_event hin).trans hx), runSteps_zero]

/-- `k` READs in a row run through from a reachable cycle: they move their own port's registers `k` times,
return bytes and change nothing else (R105, R107, R108). -/
theorem runSteps_reads {k : Nat} {s : State} {p : Port} {rest : List Event}
    (hi : s.initialised.get p = true) (hc : (s.inst.get p).cycle.toNat ≤ 39)
    (hin : s.inbox = List.replicate k (.call (.read p.index)) ++ rest) :
    ∃ returned, runSteps k s = .next { s with
      inbox := rest
      inst := s.inst.set p ((instanceAfterRead s.config.latencyModel)^[k] (s.inst.get p))
      results := s.results ++ returned } := by
  induction k generalizing rest with
  | zero =>
    obtain rfl : s.inbox = rest := hin
    exact ⟨[], by simp [runSteps_zero]⟩
  | succ k ih =>
    obtain ⟨returned, hrun⟩ := ih (rest := .call (.read p.index) :: rest)
      (by rw [hin, List.replicate_succ', List.append_assoc, List.singleton_append])
    have hcycle := iterate_instanceAfterRead_cycle s.config.latencyModel k (s.inst.get p)
    generalize hv : (instanceAfterRead s.config.latencyModel)^[k] (s.inst.get p) = v at hrun hcycle
    obtain ⟨nib, -, hx⟩ := exec_read_ready (p := p)
      (s := { s with inbox := rest, inst := s.inst.set p v, results := s.results ++ returned })
      hi (by rw [PerPort.get_set]; omega)
    refine ⟨returned ++ [⟨p, resultByte s.config.tlBit v.cycle nib⟩],
      (runSteps_call hrun rfl hx).trans ?_⟩
    simp [State.setInst, State.returnByte, Function.iterate_succ_apply', hv]

/-! ## The statements of 70_reset_and_hazards.md -/

/-- Settles O39: the READs raise latency to `k`, or past the threshold at the fourth, and the WRITE that
follows is debounced or advances by it. -/
theorem debounceWindowIsFourReads : Obligations.DebounceWindowIsFourReads := by
  intro k s p d m rest hi hc hl hm hedge hin
  obtain ⟨returned, hreads⟩ := runSteps_reads hi (by simp [hc]) hin
  have hshadow := iterate_instanceAfterRead_shadow s.config.latencyModel k (s.inst.get p)
  have hcycle := iterate_instanceAfterRead_cycle s.config.latencyModel k (s.inst.get p)
  have hlatency := min_iterate_instanceAfterRead_latency hm k (s.inst.get p)
  refine ⟨_, runSteps_call hreads rfl (exec_write_ready (by exact hi) d m), ?_⟩
  simp only [State.setInst_inst, PerPort.get_set]
  rw [hc, BitVec.toNat_ofNat] at hcycle
  rw [hl] at hlatency
  generalize (instanceAfterRead s.config.latencyModel)^[k] (s.inst.get p) = v at *
  have hfall : ¬ fallingEdge v.shadow (mergedByte v.shadow d m) = true := by
    rwa [fallingEdge_iff, hshadow]
  refine ⟨by rw [instanceAfterWrite_shadow, hshadow], fun hk => ?_, fun hk => ?_⟩
  · rw [instanceAfterWrite_debounced hfall (by omega)]
    show v.cycle.toNat = k
    omega
  · rw [instanceAfterWrite_advance hfall (by omega)]
    apply BitVec.eq_of_toNat_eq
    rw [advancedCycle_toNat, BitVec.toNat_ofNat]
    omega

/-- Settles O34: the READ starts at cycle 0, and RESET leaves the raw button mask alone. -/
theorem firstReadAfterResetReturnsSlotZero : Obligations.FirstReadAfterResetReturnsSlotZero := by
  intro s p
  refine ⟨_, _, exec_reset_index p s,
    exec_read_frame_start (by simp) (by simp [Instance.afterReset]), ?_, ?_⟩
  · simp [centreAxes_snap_b]
  · simp [instanceAfterRead, Instance.afterReset, nextSubCycle, cycleBase]

end Sys2Proof.Machine

/-! SUPPORT. The decoder's fields as arithmetic on the word, what it answers on each kind of word, and the proofs that
settle the statements of 30_encoding.md section 1 by them. -/

namespace Sys2Proof

/-! ## The fields of a word -/

@[simp] theorem bitField_op (w : Nat) : bitField w 1 0 = w % 4 := by simp [bitField]
@[simp] theorem bitField_port (w : Nat) : bitField w 2 2 = w / 4 % 2 := rfl
@[simp] theorem bitField_reserved (w : Nat) : bitField w 3 3 = w / 8 % 2 := rfl
@[simp] theorem bitField_data (w : Nat) : bitField w 11 4 = w / 16 % 256 := rfl
@[simp] theorem bitField_mask (w : Nat) : bitField w 19 12 = w / 4096 % 256 := rfl
@[simp] theorem bitField_data_mask (w : Nat) : bitField w 19 4 = w / 16 % 65536 := rfl

theorem tooWide_eq_false {w : Nat} (hw : w < 2 ^ 20) : tooWide w = false :=
  decide_eq_false (Nat.not_le.2 hw)

theorem testBit_three (w : Nat) : w.testBit 3 = decide (w / 8 % 2 = 1) :=
  Nat.testBit_eq_decide_div_mod_eq

/-! ## What the decoder answers on each kind of word -/

section
variable {w : Nat} (hw : w < 2 ^ 20)
include hw

theorem decode_reserved_op (hop : w % 4 = 3) : decode w = .error .reservedOp := by
  simp [decode, tooWide_eq_false hw, hop]

theorem decode_reserved_bit (hop : w % 4 ≠ 3) (hbit : w / 8 % 2 = 1) :
    decode w = .error .reservedBit := by
  simp [decode, tooWide_eq_false hw, hop, hbit]

theorem decode_reserved_field (hop : w % 4 = 0 ∨ w % 4 = 2) (hbit : w / 8 % 2 = 0)
    (hfield : w / 16 ≠ 0) : decode w = .error .reservedField := by
  have hfields : w / 16 % 65536 ≠ 0 := by omega
  rcases hop with hop | hop <;> simp [decode, tooWide_eq_false hw, hop, hbit, hfields]

theorem decode_read (hop : w % 4 = 0) (hbit : w / 8 % 2 = 0) (hfield : w / 16 = 0) :
    decode w = .ok (.read (w / 4 % 2)) := by
  simp [decode, tooWide_eq_false hw, hop, hbit, hfield]

theorem decode_write (hop : w % 4 = 1) (hbit : w / 8 % 2 = 0) :
    decode w = .ok (.write (w / 4 % 2) (BitVec.ofNat 8 (w / 16 % 256))
      (BitVec.ofNat 8 (w / 4096))) := by
  have hmask : w / 4096 % 256 = w / 4096 := by omega
  simp [decode, tooWide_eq_false hw, hop, hbit, hmask]

theorem decode_reset (hop : w % 4 = 2) (hbit : w / 8 % 2 = 0) (hfield : w / 16 = 0) :
    decode w = .ok (.reset (w / 4 % 2)) := by
  simp [decode, tooWide_eq_false hw, hop, hbit, hfield]

end

/-- Every word that decodes to a call, by the call (R62). -/
theorem decode_eq_ok_cases {w : Nat} {i : Instr} (h : decode w = .ok i) :
    w < 2 ^ 20 ∧ w / 8 % 2 = 0 ∧
      ((w % 4 = 0 ∧ w / 16 = 0 ∧ i = .read (w / 4 % 2)) ∨
       (w % 4 = 1 ∧ i = .write (w / 4 % 2) (BitVec.ofNat 8 (w / 16 % 256))
          (BitVec.ofNat 8 (w / 4096))) ∨
       (w % 4 = 2 ∧ w / 16 = 0 ∧ i = .reset (w / 4 % 2))) := by
  have hw : w < 2 ^ 20 := by
    by_contra hwide
    rw [decode_too_wide (Nat.not_lt.1 hwide)] at h
    cases h
  have hop : w % 4 ≠ 3 := fun hop => by rw [decode_reserved_op hw hop] at h; cases h
  have hbit : w / 8 % 2 = 0 := by
    by_contra hbit
    rw [decode_reserved_bit hw hop (by omega)] at h
    cases h
  have hfield (hop : w % 4 = 0 ∨ w % 4 = 2) : w / 16 = 0 := by
    by_contra hfield
    rw [decode_reserved_field hw hop hbit hfield] at h
    cases h
  refine ⟨hw, hbit, ?_⟩
  obtain hop | hop | hop : w % 4 = 0 ∨ w % 4 = 1 ∨ w % 4 = 2 := by omega
  · rw [decode_read hw hop hbit (hfield (.inl hop))] at h
    exact .inl ⟨hop, hfield (.inl hop), (Except.ok.inj h).symm⟩
  · rw [decode_write hw hop hbit] at h
    exact .inr (.inl ⟨hop, (Except.ok.inj h).symm⟩)
  · rw [decode_reset hw hop hbit (hfield (.inr hop))] at h
    exact .inr (.inr ⟨hop, hfield (.inr hop), (Except.ok.inj h).symm⟩)

/-! ## The encoder and the decoder -/

theorem encode_lt {i : Instr} (h : i.wf = true) : encode i < 2 ^ 20 := by
  cases i with
  | read n => exact Laws.EncodeFits.read n h
  | write n data mask => exact Laws.EncodeFits.write n data mask h
  | reset n => exact Laws.EncodeFits.reset n h

/-- Each field comes back from the sum that `encode_eq_sum` makes of the word (R61). -/
theorem decode_encode {i : Instr} (h : i.wf = true) : decode (encode i) = .ok i := by
  have hlt := encode_lt h
  have hp : i.port < 2 := of_decide_eq_true h
  have hsum := encode_eq_sum h
  generalize encode i = w at hlt hsum
  cases i with
  | read n =>
    simp only [maskField, dataField, opField, Instr.port] at hsum hp
    have hport : w / 4 % 2 = n := by omega
    rw [decode_read hlt (by omega) (by omega) (by omega), hport]
  | write n data mask =>
    have hd := data.isLt
    simp only [maskField, dataField, opField, Instr.port] at hsum hp
    have hport : w / 4 % 2 = n := by omega
    have hdata : w / 16 % 256 = data.toNat := by omega
    have hmask : w / 4096 = mask.toNat := by omega
    rw [decode_write hlt (by omega) (by omega), hport, hdata, hmask, BitVec.ofNat_toNat,
      BitVec.ofNat_toNat, BitVec.setWidth_eq, BitVec.setWidth_eq]
  | reset n =>
    simp only [maskField, dataField, opField, Instr.port] at hsum hp
    have hport : w / 4 % 2 = n := by omega
    rw [decode_reset hlt (by omega) (by omega) (by omega), hport]

theorem decode_of_encode_eq {i : Instr} {w : Nat} (h : i.wf = true) (hw : encode i = w) :
    decode w = .ok i :=
  hw ▸ decode_encode h

theorem wf_of_decode {w : Nat} {i : Instr} (h : decode w = .ok i) : i.wf = true := by
  have hport : w / 4 % 2 < 2 := Nat.mod_lt _ (by decide)
  obtain ⟨-, -, ⟨-, -, rfl⟩ | ⟨-, rfl⟩ | ⟨-, -, rfl⟩⟩ := decode_eq_ok_cases h <;>
    exact decide_eq_true hport

/-- The fields a decoded call is made of sum up to the word it was decoded from. -/
theorem encode_of_decode {w : Nat} {i : Instr} (h : decode w = .ok i) : encode i = w := by
  rw [encode_eq_sum (wf_of_decode h)]
  obtain ⟨hw, hbit, ⟨hop, hfield, rfl⟩ | ⟨hop, rfl⟩ | ⟨hop, hfield, rfl⟩⟩ := decode_eq_ok_cases h
  · simp only [maskField, dataField, opField, Instr.port]
    omega
  · simp only [maskField, dataField, opField, Instr.port, BitVec.toNat_ofNat]
    omega
  · simp only [maskField, dataField, opField, Instr.port]
    omega

/-! ## The statements of 30_encoding.md section 1 -/

/-- Settles O2: the fields of the word are those of the call, so decoding gives the call back. -/
theorem decodeOfEncodeIsTheCall : Obligations.DecodeOfEncodeIsTheCall :=
  fun _ h => ⟨encode_lt h, decode_encode h⟩

/-- Settles O3: a word that decodes has no bit outside the fields of its call. -/
theorem encodeOfDecodeIsTheWord : Obligations.EncodeOfDecodeIsTheWord :=
  fun _ _ h => ⟨wf_of_decode h, encode_of_decode h⟩

/-- Settles O4: one lemma for each kind of word. -/
theorem decodeOfEveryWord : Obligations.DecodeOfEveryWord := by
  intro w
  have bit_clear (hbit : w.testBit 3 = false) : w / 8 % 2 = 0 := by
    rw [testBit_three] at hbit
    have := of_decide_eq_false hbit
    omega
  exact ⟨decode_too_wide, decode_reserved_op,
    fun hw hop hbit => decode_reserved_bit hw hop (of_decide_eq_true ((testBit_three w).symm.trans hbit)),
    fun hw hop hbit => decode_reserved_field hw hop (bit_clear hbit),
    fun hw hop hbit => decode_read hw hop (bit_clear hbit),
    fun hw hop hbit => decode_write hw hop (bit_clear hbit),
    fun hw hop hbit => decode_reset hw hop (bit_clear hbit)⟩

/-- Settles O1: each word is the encoder's for its call, so `decode_encode` decodes it. -/
theorem specWordsDecodeToTheirCalls : Obligations.SpecWordsDecodeToTheirCalls := by
  refine ⟨decode_of_encode_eq (by decide) (by decide), decode_of_encode_eq (by decide) (by decide),
    decode_of_encode_eq (by decide) (by decide), decode_of_encode_eq (by decide) (by decide),
    decode_of_encode_eq (by decide) (by decide), decode_of_encode_eq (by decide) (by decide), ?_⟩
  intro p
  cases p with
  | p0 => exact ⟨decode_of_encode_eq (by decide) (by decide), decode_of_encode_eq (by decide) (by decide)⟩
  | p1 => exact ⟨decode_of_encode_eq (by decide) (by decide), decode_of_encode_eq (by decide) (by decide)⟩

end Sys2Proof

/-! SUPPORT. A step by the kind of event it takes, and the proofs that settle the statements of 20_memory.md,
10_state.md section 2 and 60_exceptions.md section 2 by them. -/

namespace Sys2Proof.Machine

/-! ## A step by its event -/

section
variable {s : State} {rest : List Event}

theorem step_word_of_decode {w : Nat} {i : Instr} (h : s.inbox = .word w :: rest)
    (hd : decode w = .ok i) : step s = exec i { s with inbox := rest } := by
  simp only [step_event h, runEvent, runWord, hd]

theorem step_word_refused {w : Nat} {r : RefusalReason} (h : s.inbox = .word w :: rest)
    (hd : decode w = .error r) : step s = .next (State.refuse { s with inbox := rest } r) := by
  simp only [step_event h, runEvent, runWord, hd]

theorem step_call {i : Instr} (h : s.inbox = .call i :: rest) :
    step s = exec i { s with inbox := rest } :=
  step_event h

theorem step_collab {c : CollabWrite} (h : s.inbox = .collab c :: rest) :
    step s = .next (applyCollab c { s with inbox := rest }) :=
  step_event h

end

/-! ## Refused calls -/

/-- A call that names no port is refused before anything else is looked at (R122, R125). -/
theorem exec_port_out_of_range {i : Instr} (h : 2 ≤ i.port) (s : State) :
    exec i s = .next (s.refuse .portOutOfRange) := by
  cases i with
  | read n => exact atPort_out_of_range h s _
  | write n data mask => exact atPort_out_of_range h s _
  | reset n => exact atPort_out_of_range h s _

section
variable {p : Port} {s : State} (hi : s.initialised.get p = false)
include hi

theorem exec_read_not_ready : exec (.read p.index) s = .next (s.refuse .notInitialised) :=
  atInstance_not_ready hi _

theorem exec_write_not_ready (data mask : Byte) :
    exec (.write p.index data mask) s = .next (s.refuse .notInitialised) :=
  atInstance_not_ready hi _

end

/-! ## The statements -/

/-- Settles O5: the decoder's answer is what a step runs. -/
theorem stepRunsTheDecodedWord : Obligations.StepRunsTheDecodedWord :=
  fun _ _ _ _ h hd => step_word_of_decode h hd

/-- Settles O6: a placed word is the table's word, cut to its bits. -/
theorem stepRunsThePlacedTableWord : Obligations.StepRunsThePlacedTableWord := by
  intro s nbits w i h
  rw [step_withFetchWord, runWord, decodeTableWord_eq_some h]

/-- Settles O7: the two cases of the inbox. -/
theorem stepRunsTheCallAndHoldsWhenIdle : Obligations.StepRunsTheCallAndHoldsWhenIdle :=
  ⟨fun _ _ _ h => step_call h, fun _ h => step_idle h⟩

/-- Settles O8: a write of X, Y, Z or B is one update of the port's snapshot. -/
theorem collaboratorWritesOneField : Obligations.CollaboratorWritesOneField := by
  intro s p rest
  exact ⟨fun v h => step_collab h, fun v h => step_collab h, fun v h => step_collab h,
    fun v h => step_collab h⟩

/-- Settles O9: one law of the extra cell for each value of `AUX_ALIAS`. -/
theorem collaboratorWriteOfTheExtraCellLandsOnItsAlias :
    Obligations.CollaboratorWriteOfTheExtraCellLandsOnItsAlias := by
  intro s p v rest h
  refine ⟨_, step_collab h, readAux_writeAux _ p v, rfl, rfl, rfl, rfl, rfl, rfl, rfl, ?_⟩
  rw [applyCollab]
  split
  · next ha => rw [writeAux_unsampled (by exact ha)]; exact ⟨rfl, rfl⟩
  · next ha => rw [writeAux_ownZ (by exact ha)]; exact ⟨rfl, rfl⟩
  · next ha => rw [writeAux_otherX (by exact ha)]; exact ⟨rfl, rfl⟩
  · next ha => rw [writeAux_otherY (by exact ha)]; exact ⟨rfl, rfl⟩

/-- Settles O10: the decoder, the port guard and the initialisation guard each refuse in the same way. -/
theorem refusedTransactionOnlySetsTheMark : Obligations.RefusedTransactionOnlySetsTheMark := by
  intro s rest refusedFor
  refine ⟨fun w h => ?_, fun i h hport => ?_, fun p hi => ⟨fun h => ?_, fun d m h => ?_⟩⟩
  · obtain ⟨hwide, hop, hbit, hfield, -⟩ := decodeOfEveryWord w
    exact ⟨fun hw ho => step_word_refused h (hop hw ho),
      fun hw ho hb => step_word_refused h (hbit hw ho hb),
      fun hw => step_word_refused h (hwide hw),
      fun hw ho hb hf => step_word_refused h (hfield hw ho hb (by omega))⟩
  · exact (step_call h).trans (exec_port_out_of_range hport _)
  · exact (step_call h).trans (exec_read_not_ready hi)
  · exact (step_call h).trans (exec_write_not_ready (s := { s with inbox := rest }) hi d m)

/-- Settles O11: the initialisation guard stands before READ and WRITE and not before RESET. -/
theorem onlyResetRunsBeforeTheFirstReset : Obligations.OnlyResetRunsBeforeTheFirstReset := by
  intro s p hi
  exact ⟨exec_read_not_ready hi, exec_write_not_ready hi, _, exec_reset_index p s, rfl, rfl, rfl⟩

end Sys2Proof.Machine

/-! SUPPORT. What RESET leaves of the environment, once and after both ports' RESETs, and the proofs that settle the
statements about RESET of 40_operations.md and 70_reset_and_hazards.md by them. -/

namespace Sys2Proof.Machine

/-! ## The environment after RESET -/

theorem centreAxes_aux_other (s : State) (p : Port) :
    (s.centreAxes p).aux.get p.other = s.aux.get p.other := by
  simp [State.centreAxes, State.writeAux]

/-- Two states that differ from a third in the environment alone are equal when their environments are. -/
theorem State.eq_of_environment_eq {s t u : State}
    (ht : t = { s with snap := t.snap, aux := t.aux })
    (hu : u = { s with snap := u.snap, aux := u.aux })
    (hsnap : t.snap = u.snap) (haux : t.aux = u.aux) : t = u :=
  ht.trans ((congrArg₂ (fun snap aux => { s with snap := snap, aux := aux }) hsnap haux).trans
    hu.symm)

/-- Axes that are centred already stay as they are, and so does the extra cell. -/
theorem centreAxes_idem (s : State) (p : Port) : (s.centreAxes p).centreAxes p = s.centreAxes p := by
  refine State.eq_of_environment_eq (s := s) rfl rfl (PerPort.eq_of_get p ?_ ?_)
    (PerPort.eq_of_get p ?_ ?_)
  · simp only [centreAxes_snap_own]
  · simp only [centreAxes_snap_other, State.centreAxes_config]
    split <;> split <;> rfl
  · simp only [centreAxes_aux_own, State.centreAxes_config]
    split <;> rfl
  · simp only [centreAxes_aux_other]

/-- After both ports' RESETs all six axes are centred, whatever `AUX_ALIAS` is: it can only have one of
them centred once more (R143). -/
theorem centreAxes_both_snap (s : State) (p q : Port) :
    ((s.centreAxes p).centreAxes p.other).snap.get q =
      { s.snap.get q with x := centre, y := centre, z := centre } := by
  obtain rfl | rfl := Port.eq_or_eq_other p q
  · have h := centreAxes_snap_other (s.centreAxes q) q.other
    simp only [Port.other_other, centreAxes_snap_own, ite_self] at h
    exact h
  · simp [centreAxes_snap_own, centreAxes_snap_other]

/-- After both ports' RESETs each extra cell's own storage is centred where no READ samples it. -/
theorem centreAxes_both_aux (s : State) (p q : Port) :
    ((s.centreAxes p).centreAxes p.other).aux.get q =
      if s.config.auxAlias.get q = .unsampled then centre else s.aux.get q := by
  obtain rfl | rfl := Port.eq_or_eq_other p q
  · have h := centreAxes_aux_other (s.centreAxes q) q.other
    rw [Port.other_other, centreAxes_aux_own] at h
    exact h
  · rw [centreAxes_aux_own, State.centreAxes_config, centreAxes_aux_other]

/-- The two ports' axes may be centred in either order (R143). -/
theorem centreAxes_comm (s : State) (p : Port) :
    (s.centreAxes p).centreAxes p.other = (s.centreAxes p.other).centreAxes p := by
  have hswap := centreAxes_both_snap s p.other
  have haux := centreAxes_both_aux s p.other
  rw [Port.other_other] at hswap haux
  exact State.eq_of_environment_eq (s := s) rfl rfl
    (PerPort.eq_of_get p (by rw [centreAxes_both_snap, hswap]) (by rw [centreAxes_both_snap, hswap]))
    (PerPort.eq_of_get p (by rw [centreAxes_both_aux, haux]) (by rw [centreAxes_both_aux, haux]))

/-! ## The whole state after RESET -/

/-- The state RESET of one port leaves (R80). -/
def State.afterReset (s : State) (p : Port) : State :=
  ((s.centreAxes p).setInst p .afterReset).markInitialised p

theorem exec_reset (p : Port) (s : State) : exec (.reset p.index) s = .next (s.afterReset p) :=
  exec_reset_index p s

/-- Two RESETs are two centrings, and then the registers and the flags. -/
theorem afterReset_afterReset (s : State) (p q : Port) :
    (s.afterReset p).afterReset q =
      { (s.centreAxes p).centreAxes q with
        inst := (s.inst.set p .afterReset).set q .afterReset
        initialised := (s.initialised.set p true).set q true } := rfl

theorem afterReset_idem (s : State) (p : Port) : (s.afterReset p).afterReset p = s.afterReset p := by
  rw [afterReset_afterReset, centreAxes_idem, PerPort.set_set, PerPort.set_set]
  rfl

theorem afterReset_comm (s : State) (p : Port) :
    (s.afterReset p).afterReset p.other = (s.afterReset p.other).afterReset p := by
  rw [afterReset_afterReset, afterReset_afterReset, centreAxes_comm, PerPort.set_set_other,
    PerPort.set_set_other]

theorem afterReset_readAux (s : State) (p : Port) : (s.afterReset p).readAux p = 128#8 :=
  readAux_centreAxes s p

theorem afterReset_both_snap (s : State) (p q : Port) :
    ((s.afterReset p).afterReset p.other).snap.get q =
      { s.snap.get q with x := 128#8, y := 128#8, z := 128#8 } :=
  centreAxes_both_snap s p q

/-! ## The statements -/

/-- Settles O14: the frame of `centreAxes`, field by field. -/
theorem resetLeavesTheRest : Obligations.ResetLeavesTheRest := by
  intro s p
  refine ⟨_, exec_reset p s, PerPort.get_set_other .., rfl, centreAxes_snap_b s p, ?_, ?_, ?_,
    centreAxes_aux_other s p, ?_, rfl, rfl, rfl, rfl, rfl⟩
  · exact (congrArg Snapshot.z (centreAxes_snap_other s p)).trans rfl
  · intro hx
    exact (congrArg Snapshot.x (centreAxes_snap_other s p)).trans (if_neg hx)
  · intro hy
    exact (congrArg Snapshot.y (centreAxes_snap_other s p)).trans (if_neg hy)
  · intro ha
    exact PerPort.eq_of_get p ((centreAxes_aux_own s p).trans (if_neg ha)) (centreAxes_aux_other s p)

/-- Settles O15: centring, the register values and the flag are all idempotent. -/
theorem resetIsIdempotent : Obligations.ResetIsIdempotent := by
  intro s p
  refine ⟨_, exec_reset p s, ?_⟩
  rw [exec_reset, afterReset_idem]

/-- Settles O16: after both RESETs the state does not tell their order. -/
theorem resetsOfTheTwoPortsCommute : Obligations.ResetsOfTheTwoPortsCommute := by
  intro s p
  refine ⟨_, _, _, exec_reset p s, exec_reset p.other _, exec_reset p.other s, ?_⟩
  rw [exec_reset, afterReset_comm]

/-- Settles O17: `State.resetWith` holds the values on both ports; the extra cell
reads a centred place under every `AUX_ALIAS`. -/
theorem resetStateHoldsTheResetValues : Obligations.ResetStateHoldsTheResetValues := by
  intro config p s
  have hinst : s.inst.get p = .afterReset := PerPort.get_both ..
  have hsnap (q : Port) : s.snap.get q = ⟨centre, centre, centre, 0#16⟩ := PerPort.get_both ..
  have haux : s.aux.get p = centre := PerPort.get_both ..
  have hcell : s.readAux p = centre := by
    unfold State.readAux
    split <;> simp only [hsnap, haux]
  rw [hinst, hsnap, hcell]
  exact ⟨rfl, rfl, rfl, rfl, rfl, rfl, rfl, PerPort.get_both .., rfl⟩

/-- Settles O18: the two words decode to the RESETs, and either of them may be taken for the last one. -/
theorem twoResetsFromPowerOnReachTheResetState :
    Obligations.TwoResetsFromPowerOnReachTheResetState := by
  intro config inst snap aux
  obtain ⟨-, -, hword0, hword1, -⟩ := specWordsDecodeToTheirCalls
  have hstep0 := (step_word_of_decode (s := State.powerOn config inst snap aux
    [.word 0x00002, .word 0x00006]) rfl hword0).trans (exec_reset .p0 _)
  have hstep1 := (step_word_of_decode (s := State.afterReset
    (.powerOn config inst snap aux [.word 0x00006]) .p0) rfl hword1).trans (exec_reset .p1 _)
  refine ⟨State.afterReset (State.afterReset (.powerOn config inst snap aux []) .p0) .p1, ?_,
    rfl, rfl, rfl, rfl, rfl, rfl, rfl, fun p => ⟨?_, afterReset_both_snap _ .p0 p⟩⟩
  · rw [runSteps_next hstep0]
    exact runSteps_next hstep1
  · cases p with
    | p0 =>
      rw [show Port.p1 = Port.p0.other from rfl, afterReset_comm]
      exact afterReset_readAux _ .p0
    | p1 => exact afterReset_readAux _ .p1

end Sys2Proof.Machine

/-! SUPPORT. What a WRITE does to cycle and latency, TH0 with TH already low, and the proofs that settle the
statements about WRITE of 10_state.md, 40_operations.md and 70_reset_and_hazards.md by them. -/

namespace Sys2Proof.Machine

/-! ## Cycle and latency after a WRITE -/

theorem advancedCycle_mem_groupBases (c : CycleReg) :
    (advancedCycle c).toNat ∈ [0, 8, 16, 24, 32] := by
  rw [advancedCycle_toNat]
  simp only [List.mem_cons, List.not_mem_nil, or_false]
  omega

theorem instanceAfterWrite_latency_le (v : Instance) (data mask : Byte) :
    (instanceAfterWrite v data mask).latency ≤ v.latency := by
  simp only [instanceAfterWrite]
  split
  · exact Nat.zero_le _
  · split <;> exact Nat.le_refl _

/-- Without a falling edge a WRITE leaves the cycle or advances it (R89). -/
theorem instanceAfterWrite_cycle_of_no_fall {v : Instance} {data mask : Byte}
    (h : ¬ fallingEdge v.shadow (mergedByte v.shadow data mask) = true) :
    (instanceAfterWrite v data mask).cycle = v.cycle ∨
    (instanceAfterWrite v data mask).cycle = advancedCycle v.cycle := by
  by_cases hl : 3 < v.latency
  · exact .inr (by rw [instanceAfterWrite_advance h hl])
  · exact .inl (by rw [instanceAfterWrite_debounced h (Nat.not_lt.1 hl)])

/-- The edge test sees bit 6 alone, and cycle and latency come from it and from their old values (R87). -/
theorem instanceAfterWrite_congr_bit6 {v v' : Instance} {d m d' m' : Byte}
    (hc : v.cycle = v'.cycle) (hl : v.latency = v'.latency)
    (hold : v.shadow.getLsbD 6 = v'.shadow.getLsbD 6)
    (hnew : (mergedByte v.shadow d m).getLsbD 6 = (mergedByte v'.shadow d' m').getLsbD 6) :
    (instanceAfterWrite v d m).cycle = (instanceAfterWrite v' d' m').cycle ∧
    (instanceAfterWrite v d m).latency = (instanceAfterWrite v' d' m').latency := by
  have hedge : fallingEdge v.shadow (mergedByte v.shadow d m) =
      fallingEdge v'.shadow (mergedByte v'.shadow d' m') := by
    simp only [fallingEdge, thBit, hold, hnew]
  simp only [instanceAfterWrite, hedge, hc, hl]
  split
  · exact ⟨rfl, rfl⟩
  · split <;> exact ⟨rfl, rfl⟩

/-! ## TH0 with TH already low -/

/-- Driving TH low where it is low merges to the byte that is there (R71, R74). -/
theorem mergedByte_th0_of_low {shadow : Byte} (h : shadow.getLsbD 6 = false) :
    mergedByte shadow 0x00#8 0x40#8 = shadow := by
  apply BitVec.eq_of_getLsbD_eq
  intro k hk
  rw [mergedByte_getLsbD _ _ _ hk]
  split
  · next hmask =>
    have hk6 : k = 6 := by revert hmask; revert k; decide
    rw [hk6, h]
    rfl
  · rfl

theorem not_fallingEdge_of_low {shadow : Byte} (h : shadow.getLsbD 6 = false) (merged : Byte) :
    ¬ fallingEdge shadow merged = true := by
  rw [fallingEdge_iff, h]
  rintro ⟨hset, -⟩
  cases hset

/-- Once latency is over the threshold, TH0 with TH low is an advance and nothing else (R149). -/
theorem step_th0_low {s : State} {p : Port} {rest : List Event} (hi : s.initialised.get p = true)
    (hth : (s.inst.get p).shadow.getLsbD 6 = false) (hl : 3 < (s.inst.get p).latency)
    (hin : s.inbox = .call (.th0 p) :: rest) :
    step s = .next { s with
      inbox := rest
      inst := s.inst.set p { s.inst.get p with cycle := advancedCycle (s.inst.get p).cycle } } := by
  have hx := exec_write_ready (s := { s with inbox := rest }) hi 0x00#8 0x40#8
  rw [instanceAfterWrite_advance (not_fallingEdge_of_low hth _) hl, mergedByte_th0_of_low hth] at hx
  exact (step_call hin).trans hx

/-! ## The bound of a host that toggles TH -/

/-- A READ stays in its group and leaves TH alone, so it keeps the bound (R104, R108). -/
theorem instanceAfterRead_withinGroups01 {v : Instance} (h : v.WithinGroups01) (m : LatencyModel) :
    (instanceAfterRead m v).WithinGroups01 := by
  obtain ⟨hlow, hhigh⟩ := h
  have hnext : (instanceAfterRead m v).cycle.toNat =
      8 * (v.cycle.toNat / 8) + (v.cycle.toNat + 1) % 8 := nextSubCycle_toNat v.cycle
  constructor
  · intro hth
    have hc : v.cycle.toNat < 8 := hlow hth
    omega
  · intro hth
    have hc : v.cycle.toNat < 16 := hhigh hth
    omega

/-- TH going low restarts the frame, and TH going high leaves group 0 by one advance at most (R146). -/
theorem instanceAfterWrite_withinGroups01 {v : Instance} (h : v.WithinGroups01) {d m : Byte}
    (htoggle : (mergedByte v.shadow d m).getLsbD 6 ≠ v.shadow.getLsbD 6) :
    (instanceAfterWrite v d m).WithinGroups01 := by
  cases hth : v.shadow.getLsbD 6 with
  | true =>
    have hnew : (mergedByte v.shadow d m).getLsbD 6 = false :=
      Bool.eq_false_iff.2 (hth ▸ htoggle)
    rw [instanceAfterWrite_fall ((fallingEdge_iff _ _).2 ⟨hth, hnew⟩)]
    exact ⟨fun _ => Nat.zero_lt_succ _, fun _ => Nat.zero_lt_succ _⟩
  | false =>
    have hnew : (instanceAfterWrite v d m).shadow.getLsbD 6 = true := by
      rw [instanceAfterWrite_shadow]
      exact Bool.eq_true_of_not_eq_false (hth ▸ htoggle)
    have hc : v.cycle.toNat < 8 := h.1 hth
    refine ⟨fun hclear => absurd (hnew.symm.trans hclear) (by decide), fun _ => ?_⟩
    obtain hcycle | hcycle := instanceAfterWrite_cycle_of_no_fall (v := v) (data := d) (mask := m)
      (not_fallingEdge_of_low hth _)
    · rw [hcycle]
      omega
    · rw [hcycle, advancedCycle_toNat]
      omega

/-! ## The statements -/

/-- Settles O22: the port written to keeps its cycle, restarts or advances; the other port keeps its own. -/
theorem writeLeavesCycleOrAGroupBase : Obligations.WriteLeavesCycleOrAGroupBase := by
  intro s t n q d m h
  obtain ⟨p, -, -, hx⟩ | ⟨r, hx⟩ := execWrite_cases n d m s
  · obtain rfl := Host.Outcome.next.inj (hx.symm.trans h)
    obtain rfl | rfl := Port.eq_or_eq_other p q
    · rw [State.setInst_inst, PerPort.get_set]
      obtain hc | hc | hc := instanceAfterWrite_cycle_cases (s.inst.get q) d m
      · exact .inl hc
      · exact .inr (by rw [hc]; decide)
      · exact .inr (by rw [hc]; exact advancedCycle_mem_groupBases _)
    · exact .inl (by rw [State.setInst_inst, PerPort.get_set_other])
  · obtain rfl := Host.Outcome.next.inj (hx.symm.trans h)
    exact .inl rfl

/-- Settles O23: no falling edge and a latency over the threshold is the advance. -/
theorem advanceLandsOnTheNextGroup : Obligations.AdvanceLandsOnTheNextGroup := by
  intro s p d m hi hc hl hedge
  have hfall : ¬ fallingEdge (s.inst.get p).shadow (mergedByte (s.inst.get p).shadow d m) = true := by
    rw [fallingEdge_iff, mergedByte_getLsbD _ _ _ (by decide)]
    rintro ⟨hset, hclear⟩
    split at hclear
    · next hm => exact hedge ⟨hset, hm, hclear⟩
    · rw [hset] at hclear; cases hclear
  refine ⟨_, exec_write_ready hi d m, ?_⟩
  rw [State.setInst_inst, PerPort.get_set, instanceAfterWrite_advance hfall hl, advancedCycle_toNat]
  omega

/-- Settles O24: cycle and latency after a WRITE are a function of their old values and of bit 6. -/
theorem onlyBitSixDecidesAWrite : Obligations.OnlyBitSixDecidesAWrite := by
  intro s s' p d m d' m' hi hi' hc hl hold hnew
  refine ⟨_, _, exec_write_ready hi d m, exec_write_ready hi' d' m', ?_⟩
  simp only [State.setInst_inst, PerPort.get_set]
  exact instanceAfterWrite_congr_bit6 hc hl hold hnew

/-- Settles O25: READs and toggling WRITEs each keep the bound on the port's registers. -/
theorem togglingHostStaysInGroupsZeroAndOne : Obligations.TogglingHostStaysInGroupsZeroAndOne := by
  intro s p hi hin
  have hc : (s.inst.get p).cycle.toNat < 16 := by
    cases hth : (s.inst.get p).shadow.getLsbD 6 with
    | false => exact (hin.1 hth).trans (by decide)
    | true => exact hin.2 hth
  obtain ⟨nib, -, hx⟩ := exec_read_ready hi (by omega)
  refine ⟨⟨_, hx, ?_⟩, fun d m htoggle => ⟨_, exec_write_ready hi d m, ?_⟩⟩
  · rw [State.returnByte_inst, State.setInst_inst, PerPort.get_set]
    exact instanceAfterRead_withinGroups01 hin _
  · rw [State.setInst_inst, PerPort.get_set]
    exact instanceAfterWrite_withinGroups01 hin htoggle

/-- Settles O26, by induction on the number of TH0 calls: each of them advances once, up to group 4. -/
theorem repeatedTh0WalksTheGroups : Obligations.RepeatedTh0WalksTheGroups := by
  intro n
  induction n with
  | zero =>
    intro s p rest hi hth hl hc hin
    have hcycle : advancedCycle (s.inst.get p).cycle =
        BitVec.ofNat 6 (8 * min ((s.inst.get p).cycle.toNat / 8 + (0 + 1)) 4) := by
      apply BitVec.eq_of_toNat_eq
      rw [advancedCycle_toNat, BitVec.toNat_ofNat]
      omega
    rw [runSteps_next (step_th0_low (rest := rest) hi hth hl hin), runSteps_zero, hcycle]
  | succ n ih =>
    intro s p rest hi hth hl hc hin
    have hadvance := advancedCycle_toNat (s.inst.get p).cycle
    rw [runSteps_next (step_th0_low hi hth hl (hin.trans rfl)),
      ih _ p rest (by exact hi) (by simpa using hth) (by simpa using hl)
        (by rw [PerPort.get_set]; show (advancedCycle _).toNat ≤ 39; omega) rfl]
    simp only [PerPort.get_set, PerPort.set_set, hadvance]
    have hgroup : 8 * min (min (8 * ((s.inst.get p).cycle.toNat / 8 + 1)) 32 / 8 + (n + 1)) 4 =
        8 * min ((s.inst.get p).cycle.toNat / 8 + (n + 1 + 1)) 4 := by omega
    rw [hgroup]

end Sys2Proof.Machine

/-! SUPPORT. The byte of a READ as a function of cycle and snapshot, a row of READs byte by byte, and the proofs that
settle the statements about READ of 30_encoding.md section 3 and 40_operations.md section 3 by them. -/

namespace Sys2Proof.Machine

/-! ## The byte of one READ -/

/-- A READ whose slot has a payload completes and returns the byte packed from it (R95). -/
theorem exec_read_results {p : Port} {s : State} {nib : Nibble} (hi : s.initialised.get p = true)
    (hn : payload? ((s.inst.get p).cycle.toNat / 4) (s.snap.get p) = some nib) :
    ∃ t, exec (.read p.index) s = .next t ∧
      t.results = s.results ++ [⟨p, resultByte s.config.tlBit (s.inst.get p).cycle nib⟩] :=
  ⟨_, execRead_ready hi (by rw [cycleSlot_eq, hn]), rfl⟩

theorem payload_isSome_of_cycle_le {c : Nat} (hc : c ≤ 39) (v : Snapshot) :
    ∃ nib, payload? (c / 4) v = some nib :=
  Option.isSome_iff_exists.1 ((payload_isSome_iff _ v).2 (by omega))

/-- The multiplexer looks at the field its slot selects and at no other (R68, R96). -/
theorem payload_congr {slot : Nat} {v w : Snapshot} (hb : slot = 0 ∨ slot = 1 → v.b = w.b)
    (hx : slot = 2 ∨ slot = 6 → v.x = w.x) (hy : slot = 3 ∨ slot = 7 → v.y = w.y)
    (hz : slot = 5 ∨ slot = 9 → v.z = w.z) : payload? slot v = payload? slot w := by
  match slot with
  | 0 | 1 => simp only [payload?, hb (by decide)]
  | 2 | 6 => simp only [payload?, hx (by decide)]
  | 3 | 7 => simp only [payload?, hy (by decide)]
  | 5 | 9 => simp only [payload?, hz (by decide)]
  | 4 | 8 => rfl
  | n + 10 => rfl

/-- Of the raw buttons the multiplexer looks at bits 4..11 (R69). -/
theorem payload_congr_buttons {slot : Nat} {v w : Snapshot} (hx : v.x = w.x) (hy : v.y = w.y)
    (hz : v.z = w.z) (hb : ∀ k, 4 ≤ k → k ≤ 11 → v.b.getLsbD k = w.b.getLsbD k) :
    payload? slot v = payload? slot w := by
  have complement_bits (start : Nat) (hlo : 4 ≤ start) (hhi : start ≤ 8) :
      (~~~v.b).extractLsb' start 4 = (~~~w.b).extractLsb' start 4 := by
    apply BitVec.eq_of_getLsbD_eq
    intro k hk
    simp only [BitVec.getLsbD_extractLsb', BitVec.getLsbD_not, hb (start + k) (by omega) (by omega)]
  match slot with
  | 0 => exact congrArg some (complement_bits 8 (by decide) (by decide))
  | 1 => exact congrArg some (complement_bits 4 (by decide) (by decide))
  | n + 2 => exact payload_congr (by omega) (fun _ => hx) (fun _ => hy) (fun _ => hz)

/-- A payload bit is the result bit of the same number (R66). -/
theorem resultByte_getLsbD_low (tl : TlBit) (c : CycleReg) (nib : Nibble) {k : Nat} (hk : k < 4) :
    (resultByte tl c nib).getLsbD k = nib.getLsbD k := by
  conv_rhs => rw [← resultByte_low_nibble tl c nib]
  simp [hk]

/-- The complement of the raw buttons, bit by bit (R69). -/
theorem getLsbD_extract_complement (b : ButtonMask) {start k : Nat} (hstart : start ≤ 12) (hk : k < 4) :
    ((~~~b).extractLsb' start 4).getLsbD k = !b.getLsbD (start + k) := by
  have hlt : start + k < 16 := by omega
  simp [hk, hlt]

/-- A byte with bit 7 clear and bit 6 set lies in 0x40..0x7F. -/
theorem byte_framed {b : Byte} (h7 : b.getLsbD 7 = false) (h6 : b.getLsbD 6 = true) :
    0x40 ≤ b.toNat ∧ b.toNat ≤ 0x7F := by
  revert b; decide

theorem resultByte_framed (tl : TlBit) (c : CycleReg) (nib : Nibble) :
    0x40 ≤ (resultByte tl c nib).toNat ∧ (resultByte tl c nib).toNat ≤ 0x7F :=
  byte_framed (resultByte_bit7 tl c nib) (resultByte_bit6 tl c nib)

/-- The high nibble of the byte by its two status bits, with TL at bit 4 (R73). -/
theorem resultByte_bit4_eq {c : CycleReg} {nr half : Bool} (nib : Nibble) (hnr : notReady c = nr)
    (hhalf : cycleHalf c = half) :
    resultByte .bit4 c nib =
      (0x40#8 ||| statusBit nr 5 ||| statusBit half 4) ||| nib.setWidth 8 := by
  rw [resultByte, hnr, hhalf]
  rfl

/-- At a slot of 10 or more the multiplexer has no payload, and a READ there is the fault of R124. -/
theorem exec_read_unreachable {p : Port} {s : State} (hi : s.initialised.get p = true)
    (hc : 40 ≤ (s.inst.get p).cycle.toNat) : exec (.read p.index) s = .fault .unreachableSlot := by
  have hn : payload? (cycleSlot (s.inst.get p).cycle) (s.snap.get p) = none := by
    rw [← Option.not_isSome_iff_eq_none, payload_isSome_iff, cycleSlot_eq]
    omega
  simp only [exec, execRead, atInstance_ready hi, readAt, hn]

/-! ## A collaborator's write before a READ -/

/-- A READ after a collaborator's write returns the payload of the snapshot as the write left it (R49). -/
theorem runSteps_collab_read {s : State} {p : Port} {c : CollabWrite} {v : Snapshot}
    {rest : List Event} (hi : s.initialised.get p = true) (hc : (s.inst.get p).cycle.toNat ≤ 39)
    (hin : s.inbox = .collab c :: .call (.read p.index) :: rest)
    (hv : (applyCollab c s).snap.get p = v) :
    ∃ t b, runSteps 2 s = .next t ∧ t.results = s.results ++ [⟨p, b⟩] ∧ t.snap.get p = v ∧
      ∀ {n : Nibble} (slot : Nat), payload? slot v = some n →
        (s.inst.get p).cycle.toNat / 4 = slot → b.extractLsb' 0 4 = n := by
  have hwrite := step_collab hin
  have hinst := applyCollab_inst c { s with inbox := .call (.read p.index) :: rest }
  obtain ⟨hinit, -, -, hresults, hinbox, -⟩ :=
    applyCollab_bookkeeping c { s with inbox := .call (.read p.index) :: rest }
  have hsnap : (applyCollab c { s with inbox := .call (.read p.index) :: rest }).snap.get p = v := by
    rw [← hv]
    cases c <;> rfl
  generalize applyCollab c { s with inbox := .call (.read p.index) :: rest } = u at *
  obtain ⟨nib, hn, hx⟩ := exec_read_ready (p := p) (s := { u with inbox := rest })
    (by rw [hinit]; exact hi) (by rw [hinst]; exact hc)
  refine ⟨_, resultByte u.config.tlBit (u.inst.get p).cycle nib,
    runSteps_call (k := 1) (runSteps_next hwrite) hinbox hx, ?_, hsnap, ?_⟩
  · rw [State.returnByte_results, State.setInst_results, hresults]
  · rintro n slot hpay rfl
    rw [resultByte_low_nibble]
    rw [hinst, hsnap] at hn
    exact Option.some.inj (hn.symm.trans hpay)

/-! ## A row of READs, byte by byte -/

theorem iterate_instanceAfterRead_latency_unbounded (k : Nat) (v : Instance) :
    ((instanceAfterRead .unbounded)^[k] v).latency = v.latency + k := by
  induction k generalizing v with
  | zero => rfl
  | succ k ih =>
    rw [Function.iterate_succ_apply, ih]
    exact Nat.succ_add_eq_add_succ v.latency k

/-- What `k` READs leave of the registers when latency is unbounded (R107). -/
theorem iterate_instanceAfterRead_unbounded (k : Nat) (v : Instance) :
    (instanceAfterRead .unbounded)^[k] v =
      { v with
        cycle := BitVec.ofNat 6 (8 * (v.cycle.toNat / 8) + (v.cycle.toNat + k) % 8)
        latency := v.latency + k } := by
  have hcycle : ((instanceAfterRead .unbounded)^[k] v).cycle =
      BitVec.ofNat 6 (8 * (v.cycle.toNat / 8) + (v.cycle.toNat + k) % 8) := by
    apply BitVec.eq_of_toNat_eq
    rw [iterate_instanceAfterRead_cycle, BitVec.toNat_ofNat]
    omega
  rw [← hcycle, ← iterate_instanceAfterRead_latency_unbounded k v]
  conv_rhs => rw [← iterate_instanceAfterRead_shadow .unbounded k v]

/-- The bytes of a row of READs: the `j`-th is packed from the cycle that `j` READs leave. -/
theorem runSteps_reads_bytes {k : Nat} {s : State} {p : Port} {rest : List Event}
    (hi : s.initialised.get p = true) (hc : (s.inst.get p).cycle.toNat ≤ 39)
    (hin : s.inbox = List.replicate k (.call (.read p.index)) ++ rest) :
    ∃ bytes : List Byte, bytes.length = k ∧
      runSteps k s = .next { s with
        inbox := rest
        inst := s.inst.set p ((instanceAfterRead s.config.latencyModel)^[k] (s.inst.get p))
        results := s.results ++ bytes.map (fun b => ⟨p, b⟩) } ∧
      ∀ j b, bytes[j]? = some b → ∃ nib, b = resultByte s.config.tlBit
        ((instanceAfterRead s.config.latencyModel)^[j] (s.inst.get p)).cycle nib := by
  induction k generalizing s with
  | zero =>
    obtain rfl : s.inbox = rest := hin
    exact ⟨[], rfl, by simp [runSteps_zero], by simp⟩
  | succ k ih =>
    obtain ⟨nib, -, hx⟩ := exec_read_ready (p := p)
      (s := { s with inbox := List.replicate k (.call (.read p.index)) ++ rest }) hi hc
    have hcycle := nextSubCycle_toNat (s.inst.get p).cycle
    obtain ⟨bytes, hlen, hrun, hbytes⟩ := ih (s := State.returnByte (State.setInst
        { s with inbox := List.replicate k (.call (.read p.index)) ++ rest } p
        (instanceAfterRead s.config.latencyModel (s.inst.get p))) p
        (resultByte s.config.tlBit (s.inst.get p).cycle nib)) hi
      (by
        rw [State.returnByte_inst, State.setInst_inst, PerPort.get_set]
        show (nextSubCycle _).toNat ≤ 39
        omega) rfl
    refine ⟨resultByte s.config.tlBit (s.inst.get p).cycle nib :: bytes, by rw [List.length_cons, hlen],
      ?_, ?_⟩
    · rw [runSteps_next ((step_call hin).trans hx), hrun]
      simp [State.setInst, State.returnByte]
    · intro j b hj
      cases j with
      | zero => exact ⟨nib, (Option.some.inj hj).symm⟩
      | succ j => simpa [Function.iterate_succ_apply] using hbytes j b hj

/-- Of any eight READs in a row, exactly two find the low two bits of the cycle clear (R107). -/
theorem countP_notReady_eight (c : Nat) :
    (List.range 8).countP (fun j => decide ((c + j) % 4 = 0)) = 2 := by
  have hmod : ∀ r < 4, (List.range 8).countP (fun j => decide ((r + j) % 4 = 0)) = 2 := by decide
  rw [← hmod (c % 4) (Nat.mod_lt c (by decide))]
  simp only [Nat.mod_add_mod]

/-! ## The statements -/

/-- Settles O29: a result bit is the complement's bit, and the multiplexer sees raw bits 4..11 alone. -/
theorem readInvertsTheButtons : Obligations.ReadInvertsTheButtons := by
  intro s p hi hc
  obtain ⟨nib, hn⟩ := payload_isSome_of_cycle_le hc (s.snap.get p)
  obtain ⟨t, hx, hr⟩ := exec_read_results hi hn
  refine ⟨t, _, hx, hr, fun k hk => ⟨fun h => ?_, fun ⟨hlo, hhi⟩ => ?_⟩, fun raw hraw => ?_⟩
  · have hslot : (s.inst.get p).cycle.toNat / 4 = 0 := by omega
    rw [hslot] at hn
    rw [resultByte_getLsbD_low _ _ _ hk, ← Option.some.inj hn]
    exact getLsbD_extract_complement _ (by decide) hk
  · have hslot : (s.inst.get p).cycle.toNat / 4 = 1 := by omega
    rw [hslot] at hn
    rw [resultByte_getLsbD_low _ _ _ hk, ← Option.some.inj hn]
    exact getLsbD_extract_complement _ (by decide) hk
  · refine exec_read_results (s := { s with snap := s.snap.set p { s.snap.get p with b := raw } }) hi ?_
    rw [← hn, PerPort.get_set]
    exact payload_congr_buttons rfl rfl rfl hraw

/-- Settles O30: the sub-cycle decides both status bits, which with the base make the high nibble. -/
theorem readResultBySubCycle : Obligations.ReadResultBySubCycle := by
  intro s p hi hc htl sub
  obtain ⟨nib, hn⟩ := payload_isSome_of_cycle_le hc (s.snap.get p)
  obtain ⟨t, hx, hr⟩ := exec_read_results hi hn
  obtain ⟨hlo, hhi⟩ := resultByte_framed s.config.tlBit (s.inst.get p).cycle nib
  refine ⟨t, _, nib, hx, hr, hn, hlo, hhi, ?_⟩
  have hnr : notReady (s.inst.get p).cycle = decide (sub % 4 = 0) := by
    rw [notReady_eq, Nat.mod_mod_of_dvd _ (by decide)]
  have hhalf : cycleHalf (s.inst.get p).cycle = decide (4 ≤ sub) := cycleHalf_eq _
  rw [htl]
  refine ⟨fun h => ?_, fun h => ?_, fun h => ?_, fun h => ?_⟩
  · exact resultByte_bit4_eq nib (hnr.trans (decide_eq_true (by omega)))
      (hhalf.trans (decide_eq_false (by omega)))
  · exact resultByte_bit4_eq nib (hnr.trans (decide_eq_false (by omega)))
      (hhalf.trans (decide_eq_false (by omega)))
  · exact resultByte_bit4_eq nib (hnr.trans (decide_eq_true (by omega)))
      (hhalf.trans (decide_eq_true (by omega)))
  · have hsub : sub < 8 := Nat.mod_lt _ (by decide)
    exact resultByte_bit4_eq nib (hnr.trans (decide_eq_false (by omega)))
      (hhalf.trans (decide_eq_true (by omega)))

/-- Settles O32: the payload and the status bits come from the cycle, the snapshot and TL_BIT. -/
theorem readResultDependsOnCycleAndSnapshot : Obligations.ReadResultDependsOnCycleAndSnapshot := by
  intro s s' p hi hi' hcycle hsnap htl hc
  obtain ⟨nib, hn⟩ := payload_isSome_of_cycle_le hc (s.snap.get p)
  obtain ⟨t, hx, hr⟩ := exec_read_results hi hn
  rw [hcycle, hsnap] at hn
  obtain ⟨t', hx', hr'⟩ := exec_read_results hi' hn
  rw [← hcycle, ← htl] at hr'
  exact ⟨t, t', _, hx, hx', hr, hr'⟩

/-- Settles O33: the replaced snapshot gives the multiplexer the same payload. -/
theorem readUsesTheSelectedFieldOnly : Obligations.ReadUsesTheSelectedFieldOnly := by
  intro s p hi hc slot
  obtain ⟨nib, hn⟩ := payload_isSome_of_cycle_le hc (s.snap.get p)
  obtain ⟨t, hx, hr⟩ := exec_read_results hi hn
  refine ⟨t, _, hx, hr, fun v hb hx hy hz => ?_⟩
  refine exec_read_results (s := { s with snap := s.snap.set p v }) hi ?_
  rw [← hn, PerPort.get_set]
  exact payload_congr hb hx hy hz

/-- Settles O35: the payload of the READ is the multiplexer's on the snapshot with the write in it. -/
theorem readSeesTheLastCollaboratorWrite : Obligations.ReadSeesTheLastCollaboratorWrite := by
  intro s p rest hi hc c
  refine ⟨fun v hin => ?_, fun v hin => ?_, fun v hin => ?_, fun v hin => ?_⟩
  · obtain ⟨t, b, hrun, hr, hsnap, hb⟩ := runSteps_collab_read hi hc hin (PerPort.get_set _ p _)
    exact ⟨t, b, hrun, hr, congrArg Snapshot.b hsnap,
      fun h => hb 0 rfl (by omega), fun h => hb 1 rfl (by omega)⟩
  · obtain ⟨t, b, hrun, hr, hsnap, hb⟩ := runSteps_collab_read hi hc hin (PerPort.get_set _ p _)
    exact ⟨t, b, hrun, hr, congrArg Snapshot.x hsnap,
      fun h => hb 2 rfl (by omega), fun h => hb 6 rfl (by omega)⟩
  · obtain ⟨t, b, hrun, hr, hsnap, hb⟩ := runSteps_collab_read hi hc hin (PerPort.get_set _ p _)
    exact ⟨t, b, hrun, hr, congrArg Snapshot.y hsnap,
      fun h => hb 3 rfl (by omega), fun h => hb 7 rfl (by omega)⟩
  · obtain ⟨t, b, hrun, hr, hsnap, hb⟩ := runSteps_collab_read hi hc hin (PerPort.get_set _ p _)
    exact ⟨t, b, hrun, hr, congrArg Snapshot.z hsnap,
      fun h => hb 5 rfl (by omega), fun h => hb 9 rfl (by omega)⟩

/-- Settles O36: no payload, so the fault. -/
theorem readAtUnreachableSlotFaults : Obligations.ReadAtUnreachableSlotFaults :=
  fun _ _ hi hc => exec_read_unreachable hi hc

/-- Settles O37: the row of READs, with not-ready read off the cycle of each byte. -/
theorem readsAloneStayInTheGroup : Obligations.ReadsAloneStayInTheGroup := by
  intro k s p rest hi hc hm hin
  obtain ⟨bytes, hlen, hrun, hbytes⟩ := runSteps_reads_bytes hi hc hin
  rw [hm, iterate_instanceAfterRead_unbounded] at hrun
  refine ⟨bytes, hlen, hrun, fun j b hj htl => ?_⟩
  obtain ⟨nib, rfl⟩ := hbytes j b hj
  have hmod : (8 * ((s.inst.get p).cycle.toNat / 8) + ((s.inst.get p).cycle.toNat + j) % 8) % 4 =
      ((s.inst.get p).cycle.toNat + j) % 4 := by omega
  rw [htl, (resultByte_bit4_status _ nib).2, notReady_eq, iterate_instanceAfterRead_cycle, hmod]

/-- Settles O38: eight READs come back to the same sub-cycle, and two of them are at a multiple of 4. -/
theorem eightReadsComeBack : Obligations.EightReadsComeBack := by
  intro s p rest hi hc hm htl hin
  obtain ⟨bytes, hlen, hrun, hbit⟩ := readsAloneStayInTheGroup 8 s p rest hi hc hm hin
  refine ⟨_, bytes, hrun, rfl, hlen, ?_, ?_, ?_⟩
  · rw [PerPort.get_set]
    apply BitVec.eq_of_toNat_eq
    simp only [BitVec.toNat_ofNat]
    omega
  · rw [PerPort.get_set]
  · have hbits : bytes.map (fun b => b.getLsbD 5) =
        (List.range 8).map (fun j => decide (((s.inst.get p).cycle.toNat + j) % 4 = 0)) := by
      apply List.ext_getElem (by simp [hlen])
      intro j hj hj'
      rw [List.getElem_map, List.getElem_map, List.getElem_range]
      exact hbit j _ (List.getElem?_eq_getElem _) htl
    rw [← List.countP_eq_length_filter, ← countP_notReady_eight (s.inst.get p).cycle.toNat]
    have h := congrArg (List.countP id) hbits
    rwa [List.countP_map, List.countP_map] at h

end Sys2Proof.Machine

/-! SUPPORT. What a completed transaction has done, and what a transaction at a port does to that port's
registers and to the bookkeeping; the proofs that settle the statements about all transactions by them. -/

namespace Sys2Proof

/-- What holds of the entry written and of the other one holds of every entry. -/
theorem PerPort.forall_get_set {α : Type} {P : Port → α → Prop} {t : PerPort α} {p : Port} {v : α}
    (hp : P p v) (ho : P p.other (t.get p.other)) (q : Port) : P q ((t.set p v).get q) := by
  obtain rfl | rfl := Port.eq_or_eq_other p q
  · rwa [PerPort.get_set]
  · rwa [PerPort.get_set_other]

theorem PerPort.set_eq_self {α : Type} {t : PerPort α} {p : Port} {v : α} (h : t.get p = v) :
    t.set p v = t := by
  rw [← h, PerPort.set_get]

theorem Port.exists_index_eq {n : Nat} (h : n < 2) : ∃ p : Port, n = p.index := by
  match n with
  | 0 => exact ⟨.p0, rfl⟩
  | 1 => exact ⟨.p1, rfl⟩

namespace Machine

/-! ## What a completed transaction has done -/

/-- Everything a transaction that completes can have done: it was refused, or it is a READ, WRITE or RESET of a
port that exists, with that transaction's effect. -/
theorem exec_next_cases {i : Instr} {s t : State} (h : exec i s = .next t) :
    (∃ r, t = s.refuse r) ∨
    (∃ p nib, i = .read p.index ∧
      t = (s.setInst p (instanceAfterRead s.config.latencyModel (s.inst.get p))).returnByte p
        (resultByte s.config.tlBit (s.inst.get p).cycle nib)) ∨
    (∃ p d m, i = .write p.index d m ∧ t = s.setInst p (instanceAfterWrite (s.inst.get p) d m)) ∨
    (∃ p, i = .reset p.index ∧ t = s.afterReset p) := by
  cases i with
  | read n =>
    obtain ⟨p, nib, rfl, -, -, hx⟩ | ⟨p, -, -, -, hx⟩ | ⟨r, hx⟩ := execRead_cases n s
    · exact .inr (.inl ⟨p, nib, rfl, Host.Outcome.next.inj (h.symm.trans hx)⟩)
    · exact absurd (h.symm.trans hx) (by simp)
    · exact .inl ⟨r, Host.Outcome.next.inj (h.symm.trans hx)⟩
  | write n d m =>
    obtain ⟨p, rfl, -, hx⟩ | ⟨r, hx⟩ := execWrite_cases n d m s
    · exact .inr (.inr (.inl ⟨p, d, m, rfl, Host.Outcome.next.inj (h.symm.trans hx)⟩))
    · exact .inl ⟨r, Host.Outcome.next.inj (h.symm.trans hx)⟩
  | reset n =>
    obtain ⟨p, rfl, hx⟩ | hx := execReset_cases n s
    · exact .inr (.inr (.inr ⟨p, rfl, Host.Outcome.next.inj (h.symm.trans hx)⟩))
    · exact .inl ⟨_, Host.Outcome.next.inj (h.symm.trans hx)⟩

@[simp] theorem State.afterReset_inst (s : State) (p : Port) :
    (s.afterReset p).inst = s.inst.set p .afterReset := rfl
@[simp] theorem State.afterReset_initialised (s : State) (p : Port) :
    (s.afterReset p).initialised = s.initialised.set p true := rfl
@[simp] theorem State.afterReset_results (s : State) (p : Port) :
    (s.afterReset p).results = s.results := rfl

section
variable {i : Instr} {s t : State} (h : exec i s = .next t)
include h

/-- READ keeps every shadow (R108). -/
theorem exec_read_keeps_shadows {n : Nat} (hread : i = .read n) (q : Port) :
    (t.inst.get q).shadow = (s.inst.get q).shadow := by
  subst hread
  obtain ⟨r, rfl⟩ | ⟨p, nib, -, rfl⟩ | ⟨p, d, m, hi, -⟩ | ⟨p, hi, -⟩ := exec_next_cases h
  · rfl
  · exact PerPort.forall_get_set (P := fun q (v : Instance) => v.shadow = (s.inst.get q).shadow)
      (v := instanceAfterRead s.config.latencyModel (s.inst.get p)) rfl rfl q
  · cases hi
  · cases hi

/-- A latency that grew is the work of a READ of its port (R34). -/
theorem eq_read_of_latency_lt {q : Port} (hl : (s.inst.get q).latency < (t.inst.get q).latency) :
    i = .read q.index := by
  obtain ⟨r, rfl⟩ | ⟨p, nib, rfl, rfl⟩ | ⟨p, d, m, -, rfl⟩ | ⟨p, -, rfl⟩ := exec_next_cases h
  · exact absurd hl (Nat.lt_irrefl _)
  · obtain rfl | rfl := Port.eq_or_eq_other p q
    · rfl
    · rw [State.returnByte_inst, State.setInst_inst, PerPort.get_set_other] at hl
      exact absurd hl (Nat.lt_irrefl _)
  · exact absurd hl (Nat.not_lt.2 (PerPort.forall_get_set
      (P := fun q (v : Instance) => v.latency ≤ (s.inst.get q).latency)
      (instanceAfterWrite_latency_le _ d m) (Nat.le_refl _) q))
  · exact absurd hl (Nat.not_lt.2 (PerPort.forall_get_set
      (P := fun q (v : Instance) => v.latency ≤ (s.inst.get q).latency)
      (Nat.zero_le _) (Nat.le_refl _) q))

/-- READ, WRITE and a refusal keep the environment and the initialised flags (R34, R96). -/
theorem exec_keeps_environment (hreset : ∀ n, i ≠ .reset n) :
    t.snap = s.snap ∧ t.aux = s.aux ∧ t.initialised = s.initialised := by
  obtain ⟨r, rfl⟩ | ⟨p, nib, -, rfl⟩ | ⟨p, d, m, -, rfl⟩ | ⟨p, hi, -⟩ := exec_next_cases h
  · exact ⟨rfl, rfl, rfl⟩
  · exact ⟨rfl, rfl, rfl⟩
  · exact ⟨rfl, rfl, rfl⟩
  · exact absurd hi (hreset _)

/-- A transaction stays within its own port, apart from a RESET's write to the extra cell (R48, R132). -/
theorem exec_keeps_other_port {p : Port} (hport : i.port = p.index) :
    t.inst.get p.other = s.inst.get p.other ∧
    t.initialised.get p.other = s.initialised.get p.other ∧
    ∃ more, t.results = s.results ++ more ∧ ∀ r ∈ more, r.port = p := by
  obtain ⟨r, rfl⟩ | ⟨q, nib, rfl, rfl⟩ | ⟨q, d, m, rfl, rfl⟩ | ⟨q, rfl, rfl⟩ := exec_next_cases h
  · exact ⟨rfl, rfl, [], by simp, by simp⟩
  · obtain rfl := Port.index_injective hport
    exact ⟨PerPort.get_set_other .., rfl, _, rfl, by simp⟩
  · obtain rfl := Port.index_injective hport
    exact ⟨PerPort.get_set_other .., rfl, [], by simp, by simp⟩
  · obtain rfl := Port.index_injective hport
    exact ⟨PerPort.get_set_other .., PerPort.get_set_other .., [], by simp, by simp⟩

/-- The bookkeeping after a transaction (R31, R32, R153). -/
theorem exec_bookkeeping :
    (s.refused = true → t.refused = true) ∧
    (∀ p, s.initialised.get p = true → t.initialised.get p = true) ∧
    t.config = s.config ∧ t.inbox = s.inbox ∧
    ∃ more, t.results = s.results ++ more ∧ more.length ≤ 1 := by
  obtain ⟨r, rfl⟩ | ⟨p, nib, -, rfl⟩ | ⟨p, d, m, -, rfl⟩ | ⟨p, -, rfl⟩ := exec_next_cases h
  · exact ⟨fun _ => rfl, fun _ hi => hi, rfl, rfl, [], by simp, by simp⟩
  · exact ⟨id, fun _ hi => hi, rfl, rfl, _, rfl, by simp⟩
  · exact ⟨id, fun _ hi => hi, rfl, rfl, [], by simp, by simp⟩
  · exact ⟨id, PerPort.forall_get_set (P := fun q flag => s.initialised.get q = true → flag = true)
      (fun _ => rfl) id, rfl, rfl, [], by simp, by simp⟩

end

/-- Everything a step that answers a next state has done: with the oldest event taken, it held the state, refused a
word, ran a transaction or carried out a collaborator's write. -/
theorem step_next_cases {s t : State} (h : step s = .next t) :
    t = { s with inbox := s.inbox.tail } ∨
    (∃ r, t = State.refuse { s with inbox := s.inbox.tail } r) ∨
    (∃ i, exec i { s with inbox := s.inbox.tail } = .next t) ∨
    (∃ c, t = applyCollab c { s with inbox := s.inbox.tail }) := by
  cases hin : s.inbox with
  | nil =>
    obtain rfl := Host.Outcome.next.inj ((step_idle hin).symm.trans h)
    refine .inl ?_
    rw [List.tail_nil, ← hin]
  | cons e rest =>
    rw [List.tail_cons]
    cases e with
    | word w =>
      cases hd : decode w with
      | error r =>
        exact .inr (.inl ⟨r, Host.Outcome.next.inj (h.symm.trans (step_word_refused hin hd))⟩)
      | ok i => exact .inr (.inr (.inl ⟨i, (step_word_of_decode hin hd).symm.trans h⟩))
    | call i => exact .inr (.inr (.inl ⟨i, (step_call hin).symm.trans h⟩))
    | collab c => exact .inr (.inr (.inr ⟨c, Host.Outcome.next.inj (h.symm.trans (step_collab hin))⟩))

/-! ## What a transaction at a port does -/

/-- The registers a transaction leaves at its own port, which has had its RESET or not (R81, R85, R95, R123). -/
def registersAfter (m : LatencyModel) : Instr → Bool → Instance → Instance
  | .read _, ready, v => if ready then instanceAfterRead m v else v
  | .write _ data mask, ready, v => if ready then instanceAfterWrite v data mask else v
  | .reset _, _, _ => .afterReset

/-- Whether the port has had its RESET after a transaction at it (R31). -/
def readyAfter : Instr → Bool → Bool
  | .read _, ready => ready
  | .write _ _ _, ready => ready
  | .reset _, _ => true

/-- Whether a transaction at a port that exists is refused (R123). -/
def isRefusedAt : Instr → Bool → Bool
  | .read _, ready => !ready
  | .write _ _ _, ready => !ready
  | .reset _, _ => false

/-- A transaction to a port at a reachable cycle completes, and what it does to that port's registers and to the
bookkeeping is a function of the port's own registers and flag. -/
theorem exec_at_port {i : Instr} {s : State} {p : Port} (hport : i.port = p.index)
    (hc : s.CycleReachable p) :
    ∃ t, exec i s = .next t ∧
      t.inst = s.inst.set p
        (registersAfter s.config.latencyModel i (s.initialised.get p) (s.inst.get p)) ∧
      t.initialised = s.initialised.set p (readyAfter i (s.initialised.get p)) ∧
      t.refused = (s.refused || isRefusedAt i (s.initialised.get p)) ∧
      t.config = s.config ∧ t.inbox = s.inbox ∧
      t.results.length =
        s.results.length + (isReadInstr i && s.initialised.get p).toNat := by
  cases i with
  | read n =>
    obtain rfl : n = p.index := hport
    cases hi : s.initialised.get p with
    | false =>
      exact ⟨_, exec_read_not_ready hi, (PerPort.set_get ..).symm, (PerPort.set_eq_self hi).symm,
        (Bool.or_true _).symm, rfl, rfl, rfl⟩
    | true =>
      obtain ⟨nib, -, hx⟩ := exec_read_ready hi (hc hi)
      exact ⟨_, hx, rfl, (PerPort.set_eq_self hi).symm, (Bool.or_false _).symm, rfl, rfl,
        by simp [isReadInstr]⟩
  | write n d m =>
    obtain rfl : n = p.index := hport
    cases hi : s.initialised.get p with
    | false =>
      exact ⟨_, exec_write_not_ready hi d m, (PerPort.set_get ..).symm, (PerPort.set_eq_self hi).symm,
        (Bool.or_true _).symm, rfl, rfl, rfl⟩
    | true =>
      exact ⟨_, exec_write_ready hi d m, rfl, (PerPort.set_eq_self hi).symm,
        (Bool.or_false _).symm, rfl, rfl, rfl⟩
  | reset n =>
    obtain rfl : n = p.index := hport
    exact ⟨_, exec_reset p s, rfl, rfl, (Bool.or_false _).symm, rfl, rfl, rfl⟩

theorem State.Inv.cycleReachable {s : State} (h : s.Inv) (p : Port) : s.CycleReachable p := by
  obtain ⟨h0, h1, -, -⟩ := h
  cases p
  · exact h0
  · exact h1

/-! ## The statements -/

/-- Settles O40: three facts about a completed transaction. -/
theorem whoWritesWhat : Obligations.WhoWritesWhat :=
  fun _ _ _ h => ⟨fun _ hread => exec_read_keeps_shadows h hread,
    fun _ hl => eq_read_of_latency_lt h hl, exec_keeps_environment h⟩

/-- Settles O41: a transaction's effect is at the port it names. -/
theorem transactionLeavesTheOtherInstance : Obligations.TransactionLeavesTheOtherInstance :=
  fun _ _ _ _ hport h => exec_keeps_other_port h hport

/-- Settles O43: a step takes one event, and each kind of event keeps the bookkeeping. -/
theorem bookkeepingOnlyGrows : Obligations.BookkeepingOnlyGrows := by
  intro s t h
  obtain rfl | ⟨r, rfl⟩ | ⟨i, hx⟩ | ⟨c, rfl⟩ := step_next_cases h
  · exact ⟨id, fun _ hi => hi, rfl, rfl, [], by simp, by simp⟩
  · exact ⟨fun _ => rfl, fun _ hi => hi, rfl, rfl, [], by simp, by simp⟩
  · exact exec_bookkeeping hx
  · obtain ⟨hinit, href, -, hres, hin, hcfg⟩ :=
      applyCollab_bookkeeping c { s with inbox := s.inbox.tail }
    rw [hinit, href, hres, hin, hcfg]
    exact ⟨id, fun _ hi => hi, rfl, rfl, [], by simp, by simp⟩

/-- Settles O42: each transaction's effect is a function of its own port's registers and flag, which the
other leaves alone. -/
theorem transactionsToDifferentPortsCommute : Obligations.TransactionsToDifferentPortsCommute := by
  intro i j s p hinv hi hj
  obtain ⟨t, htx, htinst, htinit, htref, htcfg, -, -⟩ := exec_at_port hi (hinv.cycleReachable p)
  obtain ⟨v, hvx, hvinst, hvinit, hvref, hvcfg, -, -⟩ := exec_at_port hj (hinv.cycleReachable p.other)
  obtain ⟨u, hux, huinst, huinit, huref, -, -, -⟩ := exec_at_port (s := t) hj (by
    rw [State.CycleReachable, htinst, htinit, PerPort.get_set_other, PerPort.get_set_other]
    exact hinv.cycleReachable p.other)
  obtain ⟨w, hwx, hwinst, hwinit, hwref, -, -, -⟩ := exec_at_port (s := v) hi (by
    rw [State.CycleReachable, hvinst, hvinit, PerPort.get_set_of_other, PerPort.get_set_of_other]
    exact hinv.cycleReachable p)
  refine ⟨t, u, v, w, htx, hux, hvx, hwx, ?_, ?_, ?_⟩
  · rw [huinst, hwinst, htinst, hvinst, htinit, hvinit, htcfg, hvcfg]
    simp only [PerPort.get_set_other, PerPort.get_set_of_other]
    exact PerPort.set_set_other ..
  · rw [huinit, hwinit, htinit, hvinit]
    simp only [PerPort.get_set_other, PerPort.get_set_of_other]
    exact PerPort.set_set_other ..
  · rw [huref, hwref, htref, hvref, htinit, hvinit]
    simp only [PerPort.get_set_other, PerPort.get_set_of_other]
    exact Bool.or_right_comm ..

end Machine
end Sys2Proof

/-! SUPPORT. The invariant, kept by every transaction, every collaborator's write and so every step and run, and a
well-formed host's step; the proofs that settle the statements about whole runs by them. -/

namespace Sys2Proof.Machine

/-! ## What keeps the invariant -/

theorem State.inv_iff (s : State) :
    s.Inv ↔ (∀ p, s.CycleReachable p) ∧ s.ResultsFramed ∧ s.refused = s.lastRefusal.isSome := by
  constructor
  · intro h
    have ⟨_, _, hframed, hmark⟩ := h
    exact ⟨h.cycleReachable, hframed, hmark⟩
  · rintro ⟨hc, hframed, hmark⟩
    exact ⟨hc .p0, hc .p1, hframed, hmark⟩

/-- The invariant looks at registers, flags, results and the mark with its reason. -/
theorem State.Inv.congr {s t : State} (h : s.Inv) (hinst : t.inst = s.inst)
    (hinit : t.initialised = s.initialised) (hresults : t.results = s.results)
    (hrefused : t.refused = s.refused) (hlast : t.lastRefusal = s.lastRefusal) : t.Inv := by
  simp only [State.Inv, State.CycleReachable, State.ResultsFramed, hinst, hinit, hresults, hrefused,
    hlast]
  exact h

theorem refuse_inv {s : State} (h : s.Inv) (r : RefusalReason) : (s.refuse r).Inv := by
  rw [State.inv_iff] at h ⊢
  obtain ⟨hc, hframed, -⟩ := h
  exact ⟨hc, hframed, rfl⟩

theorem applyCollab_inv {s : State} (h : s.Inv) (c : CollabWrite) : (applyCollab c s).Inv := by
  obtain ⟨hinit, hrefused, hlast, hresults, -, -⟩ := applyCollab_bookkeeping c s
  exact h.congr (applyCollab_inst c s) hinit hresults hrefused hlast

/-- New registers for one port keep the invariant if their cycle is in 0..39. -/
theorem setInst_inv {s : State} (h : s.Inv) {p : Port} {v : Instance}
    (hv : s.initialised.get p = true → v.cycle.toNat ≤ 39) : (s.setInst p v).Inv := by
  rw [State.inv_iff] at h ⊢
  obtain ⟨hc, hframed, hmark⟩ := h
  exact ⟨PerPort.forall_get_set
    (P := fun q (v : Instance) => s.initialised.get q = true → v.cycle.toNat ≤ 39) hv (hc p.other),
    hframed, hmark⟩

theorem returnByte_inv {s : State} (h : s.Inv) (p : Port) {b : Byte}
    (hb : 0x40 ≤ b.toNat ∧ b.toNat ≤ 0x7F) : (s.returnByte p b).Inv := by
  rw [State.inv_iff] at h ⊢
  obtain ⟨hc, hframed, hmark⟩ := h
  refine ⟨hc, fun r hr => ?_, hmark⟩
  obtain hr | hr := List.mem_append.1 hr
  · exact hframed r hr
  · rw [List.mem_singleton.1 hr]
    exact hb

theorem afterReset_inv {s : State} (h : s.Inv) (p : Port) : (s.afterReset p).Inv := by
  rw [State.inv_iff] at h ⊢
  obtain ⟨hc, hframed, hmark⟩ := h
  refine ⟨fun q => ?_, hframed, hmark⟩
  obtain rfl | rfl := Port.eq_or_eq_other p q
  · intro _
    rw [State.afterReset_inst, PerPort.get_set]
    exact Nat.zero_le _
  · rw [State.CycleReachable, State.afterReset_inst, State.afterReset_initialised,
      PerPort.get_set_other, PerPort.get_set_other]
    exact hc p.other

theorem instanceAfterRead_cycle_le {v : Instance} (h : v.cycle.toNat ≤ 39) (m : LatencyModel) :
    (instanceAfterRead m v).cycle.toNat ≤ 39 := by
  show (nextSubCycle v.cycle).toNat ≤ 39
  rw [nextSubCycle_toNat]
  omega

theorem instanceAfterWrite_cycle_le {v : Instance} (h : v.cycle.toNat ≤ 39) (data mask : Byte) :
    (instanceAfterWrite v data mask).cycle.toNat ≤ 39 := by
  obtain hc | hc | hc := instanceAfterWrite_cycle_cases v data mask
  · rwa [hc]
  · rw [hc]
    exact Nat.zero_le _
  · rw [hc, advancedCycle_toNat]
    omega

theorem exec_keeps_inv {i : Instr} {s t : State} (h : s.Inv) (hx : exec i s = .next t) : t.Inv := by
  obtain ⟨r, rfl⟩ | ⟨p, nib, -, rfl⟩ | ⟨p, d, m, -, rfl⟩ | ⟨p, -, rfl⟩ := exec_next_cases hx
  · exact refuse_inv h r
  · exact returnByte_inv (setInst_inv h fun hi => instanceAfterRead_cycle_le (h.cycleReachable p hi) _)
      p (resultByte_framed ..)
  · exact setInst_inv h fun hi => instanceAfterWrite_cycle_le (h.cycleReachable p hi) d m
  · exact afterReset_inv h p

/-! ## Steps and runs from a state that meets the invariant -/

theorem step_keeps_inv {s t : State} (h : s.Inv) (hs : step s = .next t) : t.Inv := by
  have htaken : State.Inv { s with inbox := s.inbox.tail } := h
  obtain rfl | ⟨r, rfl⟩ | ⟨i, hx⟩ | ⟨c, rfl⟩ := step_next_cases hs
  · exact htaken
  · exact refuse_inv htaken r
  · exact exec_keeps_inv htaken hx
  · exact applyCollab_inv htaken c

theorem exec_completes {s : State} (h : s.Inv) (i : Instr) : ∃ t, exec i s = .next t := by
  by_cases hport : i.port < 2
  · obtain ⟨p, hp⟩ := Port.exists_index_eq hport
    obtain ⟨t, hx, -⟩ := exec_at_port hp (h.cycleReachable p)
    exact ⟨t, hx⟩
  · exact ⟨_, exec_port_out_of_range (Nat.not_lt.1 hport) s⟩

theorem step_completes {s : State} (h : s.Inv) : ∃ t, step s = .next t := by
  obtain ⟨-, hs⟩ | ⟨rest, r, hs⟩ | ⟨rest, i, hs⟩ | ⟨rest, c, hs⟩ := step_cases s
  · exact ⟨_, hs⟩
  · exact ⟨_, hs⟩
  · obtain ⟨t, hx⟩ := exec_completes (s := { s with inbox := rest }) h i
    exact ⟨t, hs.trans hx⟩
  · exact ⟨_, hs⟩

/-- A run from a state that meets the invariant goes through and ends in one that does. -/
theorem runSteps_inv {s : State} (h : s.Inv) (k : Nat) : ∃ t, runSteps k s = .next t ∧ t.Inv := by
  induction k generalizing s with
  | zero => exact ⟨s, runSteps_zero s, h⟩
  | succ k ih =>
    obtain ⟨t, hs⟩ := step_completes h
    rw [runSteps_next hs]
    exact ih (step_keeps_inv h hs)

theorem resetWith_inv (config : Config) : (State.resetWith config).Inv := by
  rw [State.inv_iff]
  refine ⟨fun p _ => ?_, fun r hr => absurd hr List.not_mem_nil, rfl⟩
  rw [show (State.resetWith config).inst.get p = .afterReset from PerPort.get_both ..]
  exact Nat.zero_le _

theorem powerOn_inv (config : Config) (inst : PerPort Instance) (snap : PerPort Snapshot)
    (aux : PerPort Byte) (inbox : List Event) : (State.powerOn config inst snap aux inbox).Inv := by
  rw [State.inv_iff]
  refine ⟨fun p hi => ?_, fun r hr => absurd hr List.not_mem_nil, rfl⟩
  exact absurd ((PerPort.get_both false p).symm.trans hi) (by decide)

/-! ## A well-formed host -/

/-- What a host that keeps to R154 starts a step from: nothing refused and both ports reset. -/
def State.Ready (s : State) : Prop := s.Inv ∧ s.Clean ∧ ∀ p, s.initialised.get p = true

/-- A well-formed transaction at ports that have had their RESET is not refused and returns a byte if it is a
READ (R120). -/
theorem exec_of_ready {s : State} (h : s.Ready) {i : Instr} (hwf : i.wf = true) :
    ∃ t, exec i s = .next t ∧ t.Ready ∧ t.inbox = s.inbox ∧
      t.results.length = s.results.length + (isReadInstr i).toNat := by
  obtain ⟨hinv, hclean, hinit⟩ := h
  obtain ⟨p, hp⟩ := Port.exists_index_eq (of_decide_eq_true hwf)
  obtain ⟨t, hx, -, -, href, -, hin, hlen⟩ := exec_at_port hp (hinv.cycleReachable p)
  have hrefusal : isRefusedAt i true = false := by cases i <;> rfl
  obtain ⟨-, hsticky, -⟩ := exec_bookkeeping hx
  rw [hinit p, hrefusal, Bool.or_false] at href
  rw [hinit p, Bool.and_true] at hlen
  exact ⟨t, hx, ⟨exec_keeps_inv hinv hx, href.trans hclean, fun q => hsticky q (hinit q)⟩, hin, hlen⟩

/-- A well-formed event is taken, is not refused, and returns a byte if it is a READ. -/
theorem step_of_ready {s : State} {e : Event} {rest : List Event} (h : s.Ready)
    (hin : s.inbox = e :: rest) (hwf : e.wellFormed = true) :
    ∃ t, step s = .next t ∧ t.Ready ∧ t.inbox = rest ∧
      t.results.length = s.results.length + e.isRead.toNat := by
  have htaken : State.Ready { s with inbox := rest } := h
  cases e with
  | word w =>
    cases hd : decode w with
    | error r => simp [Event.wellFormed, hd] at hwf
    | ok i =>
      rw [step_word_of_decode hin hd, Event.isRead, hd]
      exact exec_of_ready htaken (wf_of_decode hd)
  | call i =>
    rw [step_call hin]
    exact exec_of_ready htaken hwf
  | collab c =>
    obtain ⟨hinv, hclean, hinit⟩ := htaken
    obtain ⟨hinit', href, -, hres, hrest, -⟩ := applyCollab_bookkeeping c { s with inbox := rest }
    refine ⟨_, step_collab hin, ⟨applyCollab_inv hinv c, href.trans hclean, ?_⟩, hrest, ?_⟩
    · rw [hinit']
      exact hinit
    · rw [hres]
      rfl

/-! ## The statements -/

/-- Settles O44: right after reset both cycles are 0, and at power-on no port has had its RESET. -/
theorem invHoldsAtResetAndPowerOn : Obligations.InvHoldsAtResetAndPowerOn :=
  ⟨resetWith_inv machineConfig, resetWith_inv, powerOn_inv⟩

/-- Settles O45: a refusal, a transaction and a collaborator's write each keep the invariant. -/
theorem stepKeepsInv : Obligations.StepKeepsInv :=
  fun _ _ h hs => step_keeps_inv h hs

/-- Settles O46: the one fault is at a cycle the invariant excludes. -/
theorem stepNeverStops : Obligations.StepNeverStops :=
  fun _ h => step_completes h

/-- Settles O47: the invariant holds at power-on, so a run goes through and ends with cycles in 0..39. -/
theorem runsFromPowerOnNeverStop : Obligations.RunsFromPowerOnNeverStop := by
  intro config inst snap aux inbox k
  obtain ⟨t, hrun, hinv⟩ := runSteps_inv (powerOn_inv config inst snap aux inbox) k
  refine ⟨t, hrun, fun p hi => ?_⟩
  have hc : (t.inst.get p).cycle.toNat ≤ 39 := hinv.cycleReachable p hi
  omega

/-- Settles O48, by induction on the number of steps: each takes one well-formed event, or none is left. -/
theorem wellFormedHostIsNeverRefused : Obligations.WellFormedHostIsNeverRefused := by
  intro k
  induction k with
  | zero => exact fun s _ hclean _ _ => ⟨s, runSteps_zero s, hclean, rfl⟩
  | succ k ih =>
    intro s hinv hclean hinit hwf
    cases hin : s.inbox with
    | nil =>
      obtain ⟨t, hrun, htclean, hlen⟩ := ih s hinv hclean hinit hwf
      rw [hin, List.take_nil] at hlen
      exact ⟨t, (runSteps_next (step_idle hin)).trans hrun, htclean, hlen⟩
    | cons e rest =>
      rw [hin] at hwf
      obtain ⟨t, hs, ⟨htinv, htclean, htinit⟩, htin, htlen⟩ :=
        step_of_ready ⟨hinv, hclean, hinit⟩ hin (hwf e List.mem_cons_self)
      obtain ⟨u, hrun, huclean, hulen⟩ := ih t htinv htclean htinit fun e' he' =>
        hwf e' (List.mem_cons_of_mem e (htin ▸ he'))
      refine ⟨u, (runSteps_next hs).trans hrun, huclean, ?_⟩
      rw [hulen, htlen, htin, List.take_succ_cons]
      cases hread : e.isRead with
      | false => rw [List.filter_cons_of_neg (by simp [hread])]; rfl
      | true => rw [List.filter_cons_of_pos hread, List.length_cons, Bool.toNat_true]; omega

end Sys2Proof.Machine

/-! SUPPORT. Two states seen through views: when their transactions, steps and runs agree under the views; the two
views of 10_state.md section 1, and the proofs that settle R26 and R27 by them. -/

namespace Sys2Proof.Machine

/-! ## States that agree under views -/

@[simp] theorem mapNext_id (o : Host.Outcome State Fault Refusal) : mapNext id o = o := by
  cases o <;> rfl

/-- Outcomes that agree under views are two next states that do, or one and the same stop. -/
theorem mapNext_eq_cases {f g : State → State} {o o' : Host.Outcome State Fault Refusal}
    (h : mapNext f o = mapNext g o') :
    (∃ t t', o = .next t ∧ o' = .next t' ∧ f t = g t') ∨
    (∃ r, o = .fault r ∧ o' = .fault r) ∨ (∃ r, o = .refused r ∧ o' = .refused r) := by
  cases o with
  | next t =>
    cases o' with
    | next t' => exact .inl ⟨t, t', rfl, rfl, Host.Outcome.next.inj h⟩
    | fault r => cases h
    | refused r => cases h
  | fault r =>
    cases o' with
    | next t' => cases h
    | fault r' => exact .inr (.inl ⟨r, rfl, by rw [Host.Outcome.fault.inj h]⟩)
    | refused r' => cases h
  | refused r =>
    cases o' with
    | next t' => cases h
    | fault r' => cases h
    | refused r' => exact .inr (.inr ⟨r, rfl, by rw [Host.Outcome.refused.inj h]⟩)

/-- Two states whose every event agrees under the views `f` and `g`: the guards and the multiplexer see the same
in both, and each effect looks the same. -/
structure AgreeUnder (f g : State → State) (s s' : State) : Prop where
  initialised : s.initialised = s'.initialised
  snap : s.snap = s'.snap
  cycle : ∀ p, (s.inst.get p).cycle = (s'.inst.get p).cycle
  tlBit : s.config.tlBit = s'.config.tlBit
  refuse : ∀ r, f (s.refuse r) = g (s'.refuse r)
  read : ∀ p b,
    f ((s.setInst p (instanceAfterRead s.config.latencyModel (s.inst.get p))).returnByte p b) =
    g ((s'.setInst p (instanceAfterRead s'.config.latencyModel (s'.inst.get p))).returnByte p b)
  write : ∀ p d m, f (s.setInst p (instanceAfterWrite (s.inst.get p) d m)) =
    g (s'.setInst p (instanceAfterWrite (s'.inst.get p) d m))
  reset : ∀ p, f (s.afterReset p) = g (s'.afterReset p)
  collab : ∀ c, f (applyCollab c s) = g (applyCollab c s')

section
variable {f g : State → State} {s s' : State}

theorem mapNext_atPort (h : AgreeUnder f g s s') {body body' : Port → Host.Outcome State Fault Refusal}
    (hbody : ∀ p, mapNext f (body p) = mapNext g (body' p)) (n : Nat) :
    mapNext f (atPort n s body) = mapNext g (atPort n s' body') := by
  unfold atPort
  cases portOfIndex? n with
  | none => exact congrArg _ (h.refuse _)
  | some p => exact hbody p

theorem mapNext_atInstance (h : AgreeUnder f g s s')
    {body body' : Port → Host.Outcome State Fault Refusal}
    (hbody : ∀ p, mapNext f (body p) = mapNext g (body' p)) (n : Nat) :
    mapNext f (atInstance n s body) = mapNext g (atInstance n s' body') := by
  refine mapNext_atPort h (fun p => ?_) n
  rw [← h.initialised]
  cases s.initialised.get p with
  | false => exact congrArg _ (h.refuse _)
  | true => exact hbody p

theorem mapNext_readAt (h : AgreeUnder f g s s') (p : Port) :
    mapNext f (readAt s p) = mapNext g (readAt s' p) := by
  simp only [readAt, ← h.cycle, ← h.snap, ← h.tlBit]
  cases payload? (cycleSlot (s.inst.get p).cycle) (s.snap.get p) with
  | none => rfl
  | some nib => exact congrArg _ (h.read p _)

theorem mapNext_exec (h : AgreeUnder f g s s') (i : Instr) :
    mapNext f (exec i s) = mapNext g (exec i s') := by
  cases i with
  | read n => exact mapNext_atInstance h (mapNext_readAt h) n
  | write n d m => exact mapNext_atInstance h (fun p => congrArg _ (h.write p d m)) n
  | reset n => exact mapNext_atPort h (fun p => congrArg _ (h.reset p)) n

theorem mapNext_runEvent (h : AgreeUnder f g s s') (e : Event) :
    mapNext f (runEvent e s) = mapNext g (runEvent e s') := by
  cases e with
  | word w =>
    simp only [runEvent, runWord]
    cases decode w with
    | ok i => exact mapNext_exec h i
    | error r => exact congrArg _ (h.refuse r)
  | call i => exact mapNext_exec h i
  | collab c => exact congrArg _ (h.collab c)

theorem mapNext_step (hsame : f s = g s') (hin : s.inbox = s'.inbox)
    (h : ∀ rest, AgreeUnder f g { s with inbox := rest } { s' with inbox := rest }) :
    mapNext f (step s) = mapNext g (step s') := by
  cases hs : s.inbox with
  | nil => rw [step_idle hs, step_idle (hin ▸ hs)]; exact congrArg _ hsame
  | cons e rest => rw [step_event hs, step_event (hin ▸ hs)]; exact mapNext_runEvent (h rest) e

/-- Runs agree under views when a relation on the states gives it for each step and goes on to hold. -/
theorem mapNext_runSteps {R : State → State → Prop} (hsame : ∀ {s s'}, R s s' → f s = g s')
    (hstep : ∀ {s s'}, R s s' → mapNext f (step s) = mapNext g (step s'))
    (hnext : ∀ {s s' t t'}, R s s' → step s = .next t → f t = g t' → R t t') (k : Nat)
    (h : R s s') : mapNext f (runSteps k s) = mapNext g (runSteps k s') := by
  induction k generalizing s s' with
  | zero => exact congrArg _ (hsame h)
  | succ k ih =>
    obtain ⟨t, t', hs, hs', ht⟩ | ⟨r, hs, hs'⟩ | ⟨r, hs, hs'⟩ := mapNext_eq_cases (hstep h)
    · rw [runSteps_next hs, runSteps_next hs']
      exact ih (hnext h hs ht)
    · rw [runSteps_fault hs, runSteps_fault hs']
      rfl
    · rw [runSteps_refused hs, runSteps_refused hs']
      rfl

end

/-! ## The view with saturating latencies -/

/-- The registers as a counter that saturates at `limit` shows them (R26). -/
def Instance.saturate (limit : Nat) (v : Instance) : Instance :=
  { v with latency := min v.latency limit }

@[simp] theorem saturateLatency_get (limit : Nat) (s : State) (p : Port) :
    (s.saturateLatency limit).inst.get p = (s.inst.get p).saturate limit := mapPorts_get _ s.inst p

theorem saturateLatency_setInst (limit : Nat) (s : State) (p : Port) (v : Instance) :
    (s.setInst p v).saturateLatency limit = (s.saturateLatency limit).setInst p (v.saturate limit) :=
  congrArg (fun inst => { s.saturateLatency limit with inst := inst }) (mapPorts_set _ s.inst p v)

theorem saturate_instanceAfterRead (limit : Nat) (v : Instance) :
    (instanceAfterRead .unbounded v).saturate limit =
      instanceAfterRead (.saturating limit) (v.saturate limit) := by
  have hcount : min (v.latency + 1) limit = min (min v.latency limit + 1) limit := by omega
  exact congrArg (fun latency => { instanceAfterRead .unbounded v with latency := latency }) hcount

/-- A limit of 4 or more keeps the threshold on the same side, so a WRITE takes the same branch (R26). -/
theorem saturate_instanceAfterWrite {limit : Nat} (hlimit : 4 ≤ limit) (v : Instance) (d m : Byte) :
    (instanceAfterWrite v d m).saturate limit = instanceAfterWrite (v.saturate limit) d m := by
  by_cases hfall : fallingEdge v.shadow (mergedByte v.shadow d m) = true
  · rw [instanceAfterWrite_fall hfall, instanceAfterWrite_fall (by exact hfall), Instance.saturate,
      Nat.zero_min]
    rfl
  · obtain hl | hl := Nat.lt_or_ge 3 v.latency
    · have hl' : 3 < (v.saturate limit).latency := Nat.lt_min.2 ⟨hl, hlimit⟩
      rw [instanceAfterWrite_advance hfall hl, instanceAfterWrite_advance (by exact hfall) hl']
      rfl
    · have hl' : (v.saturate limit).latency ≤ 3 := (Nat.min_le_left ..).trans hl
      rw [instanceAfterWrite_debounced hfall hl, instanceAfterWrite_debounced (by exact hfall) hl']
      rfl

theorem saturateLatency_afterReset (limit : Nat) (s : State) (p : Port) :
    (s.afterReset p).saturateLatency limit = (s.saturateLatency limit).afterReset p := by
  have hreset : Instance.afterReset.saturate limit = .afterReset :=
    congrArg (fun latency => { Instance.afterReset with latency := latency }) (Nat.zero_min limit)
  have hset := saturateLatency_setInst limit (s.centreAxes p) p .afterReset
  rw [hreset] at hset
  exact congrArg (State.markInitialised · p) hset

theorem agreeUnder_saturateLatency {limit : Nat} (hlimit : 4 ≤ limit) {s : State}
    (hm : s.config.latencyModel = .unbounded) :
    AgreeUnder (State.saturateLatency limit) id s (s.saturateLatency limit) where
  initialised := rfl
  snap := rfl
  cycle p := by rw [saturateLatency_get]; rfl
  tlBit := rfl
  refuse _ := rfl
  read p b := by
    rw [hm, saturateLatency_get]
    exact congrArg (State.returnByte · p b) ((saturateLatency_setInst ..).trans
      (congrArg _ (saturate_instanceAfterRead limit _)))
  write p d m := by
    rw [saturateLatency_setInst, saturate_instanceAfterWrite hlimit, saturateLatency_get]
    rfl
  reset := saturateLatency_afterReset limit s
  collab c := by cases c <;> rfl

/-! ## The view with TH alone of the shadow -/

/-- The registers with nothing of the shadow but TH (R27). -/
def Instance.keepTh (v : Instance) : Instance := { v with shadow := v.shadow &&& 0x40#8 }

@[simp] theorem keepThOnly_get (s : State) (p : Port) :
    s.keepThOnly.inst.get p = (s.inst.get p).keepTh := mapPorts_get _ s.inst p

theorem keepThOnly_setInst (s : State) (p : Port) (v : Instance) :
    (s.setInst p v).keepThOnly = s.keepThOnly.setInst p v.keepTh :=
  congrArg (fun inst => { s.keepThOnly with inst := inst }) (mapPorts_set _ s.inst p v)

theorem keepTh_bit6 (v : Instance) : v.keepTh.shadow.getLsbD 6 = v.shadow.getLsbD 6 := by
  rw [Instance.keepTh, BitVec.getLsbD_and]
  exact Bool.and_true _

/-- Registers with one cycle, one latency and one TH look the same (R27). -/
theorem keepTh_congr {v w : Instance} (hc : v.cycle = w.cycle) (hl : v.latency = w.latency)
    (hth : v.shadow.getLsbD 6 = w.shadow.getLsbD 6) : v.keepTh = w.keepTh := by
  have hshadow : v.shadow &&& 0x40#8 = w.shadow &&& 0x40#8 := by
    apply BitVec.eq_of_getLsbD_eq
    intro k hk
    rw [BitVec.getLsbD_and, BitVec.getLsbD_and]
    by_cases hk6 : k = 6
    · rw [hk6, hth]
    · have hmask : (0x40#8).getLsbD k = false := by revert k; decide
      rw [hmask, Bool.and_false, Bool.and_false]
  rw [Instance.keepTh, Instance.keepTh, hc, hl, hshadow]

theorem keepTh_idem (v : Instance) : v.keepTh.keepTh = v.keepTh :=
  keepTh_congr rfl rfl (keepTh_bit6 v)

theorem keepThOnly_idem (s : State) : s.keepThOnly.keepThOnly = s.keepThOnly :=
  congrArg (fun inst => { s with inst := inst })
    (congrArg₂ PerPort.mk (keepTh_idem s.inst.p0) (keepTh_idem s.inst.p1))

/-- New registers that look the same give states that look the same. -/
theorem keepThOnly_setInst_keepThOnly (s : State) (p : Port) {v w : Instance}
    (h : v.keepTh = w.keepTh) :
    (s.setInst p v).keepThOnly = (s.keepThOnly.setInst p w).keepThOnly := by
  rw [keepThOnly_setInst, keepThOnly_setInst, keepThOnly_idem, h]

theorem keepTh_instanceAfterRead (m : LatencyModel) (v : Instance) :
    (instanceAfterRead m v).keepTh = (instanceAfterRead m v.keepTh).keepTh :=
  (keepTh_idem (instanceAfterRead m v)).symm

/-- A WRITE tests bit 6 and stores byte by byte, so the other bits reach nothing but themselves (R87, R71). -/
theorem keepTh_instanceAfterWrite (v : Instance) (d m : Byte) :
    (instanceAfterWrite v d m).keepTh = (instanceAfterWrite v.keepTh d m).keepTh := by
  have hnew : (mergedByte v.shadow d m).getLsbD 6 = (mergedByte v.keepTh.shadow d m).getLsbD 6 := by
    rw [mergedByte_getLsbD _ _ _ (by decide), mergedByte_getLsbD _ _ _ (by decide), keepTh_bit6]
  obtain ⟨hc, hl⟩ := instanceAfterWrite_congr_bit6 (v := v) (v' := v.keepTh) rfl rfl
    (keepTh_bit6 v).symm hnew
  refine keepTh_congr hc hl ?_
  rw [instanceAfterWrite_shadow, instanceAfterWrite_shadow, hnew]

theorem keepThOnly_afterReset (s : State) (p : Port) :
    (s.afterReset p).keepThOnly = (s.keepThOnly.afterReset p).keepThOnly := by
  have hset := keepThOnly_setInst_keepThOnly (s.centreAxes p) p (v := .afterReset) (w := .afterReset) rfl
  exact congrArg (State.markInitialised · p) hset

theorem agreeUnder_keepThOnly (s : State) :
    AgreeUnder State.keepThOnly State.keepThOnly s s.keepThOnly where
  initialised := rfl
  snap := rfl
  cycle p := by rw [keepThOnly_get]; rfl
  tlBit := rfl
  refuse r := (keepThOnly_idem (s.refuse r)).symm
  read p b := by
    rw [keepThOnly_get]
    exact congrArg (State.returnByte · p b)
      (keepThOnly_setInst_keepThOnly s p (keepTh_instanceAfterRead _ _))
  write p d m := by
    rw [keepThOnly_get]
    exact keepThOnly_setInst_keepThOnly s p (keepTh_instanceAfterWrite _ d m)
  reset := keepThOnly_afterReset s
  collab c := by
    have hview : applyCollab c s.keepThOnly = (applyCollab c s).keepThOnly := by cases c <;> rfl
    rw [hview, keepThOnly_idem]

theorem mapNext_step_keepThOnly (s : State) :
    mapNext State.keepThOnly (step s) = mapNext State.keepThOnly (step s.keepThOnly) :=
  mapNext_step (keepThOnly_idem s).symm rfl fun rest => agreeUnder_keepThOnly { s with inbox := rest }

/-! ## The statements -/

/-- Settles O49: with the unbounded model, a step of the saturated view is the saturated view of the step. -/
theorem saturatingLatencyIsIndistinguishable : Obligations.SaturatingLatencyIsIndistinguishable := by
  intro limit k s hlimit hm
  rw [← mapNext_id (runSteps k (s.saturateLatency limit))]
  refine (mapNext_runSteps (R := fun s s' => s.config.latencyModel = .unbounded ∧
    s.saturateLatency limit = s') And.right ?_ ?_ k ⟨hm, rfl⟩).symm
  · rintro s _ ⟨hs, rfl⟩
    exact mapNext_step rfl rfl fun rest =>
      agreeUnder_saturateLatency hlimit (s := { s with inbox := rest }) hs
  · rintro s _ t t' ⟨hs, rfl⟩ hstep ht
    obtain ⟨-, -, hconfig, -⟩ := bookkeepingOnlyGrows s t hstep
    exact ⟨by rw [hconfig, hs], ht⟩

/-- Settles O50: states that look the same take steps that look the same. -/
theorem otherShadowBitsAreUnobservable : Obligations.OtherShadowBitsAreUnobservable := by
  intro k s
  refine mapNext_runSteps (R := fun s s' => s.keepThOnly = s'.keepThOnly) id ?_ ?_ k
    (keepThOnly_idem s)
  · intro s s' h
    rw [mapNext_step_keepThOnly s, mapNext_step_keepThOnly s', h]
  · exact fun _ _ ht => ht

end Sys2Proof.Machine
